-- ==== Sys2Proof/Word.lean ====
section
/-! DEFINITION. The two word widths of the machine (00_scope.md R5): 8-bit data, 16-bit addresses. -/

namespace Sys2Proof

/-- A byte: a register, a memory cell, an instruction byte (00 R5). -/
abbrev Byte := BitVec 8

/-- A 16-bit quantity: `PC`, an effective address, the timer's latch (00 R5). -/
abbrev Word := BitVec 16

end Sys2Proof
end

