-- ==== Sys2Proof/Config.lean ====
section
/-! DEFINITION. The implementation parameters of 00_scope.md R5, as plain data, and the one free value.
A configuration is fixed before reset and never changed by a step (10 R21); it is a field of State, so that a
claim about every state is a claim about every platform (log 2). The column 'default' of 00 R5 is
`Config.default`. -/

namespace Sys2Proof

/-- A ROM window `[start, start + bytes.length - 1]` (20 R44). -/
structure RomWindow where
  start : Nat
  bytes : List Byte
  deriving DecidableEq, Repr

/-- Who answers a hook: the timer of 60 R243, or an out-of-scope device known by a number (20 R49). -/
inductive Device where
  | timer
  | external (id : Nat)
  deriving DecidableEq, Repr

/-- A device hook range `[start, stop]` (20 R45); `hasRead`, `hasWrite`: whether the handler exists (20 R42). -/
structure Hook where
  start : Nat
  stop : Nat
  device : Device
  hasRead : Bool
  hasWrite : Bool
  deriving DecidableEq, Repr

/-- The cycle part of an opcode's descriptor (10 R21): `baseCycles` and `pageCrossAddsCycle`. -/
structure CycleEntry where
  base : Nat
  pageCross : Bool
  deriving DecidableEq, Repr

/-- The timer's hook with register 0 at `base` (60 R243): eight addresses; its read handler answers "no value"
(60 R247), its write handler is `writeRegister`. -/
def timerHook (base : Nat) : Hook :=
  { start := base, stop := base + 7, device := .timer, hasRead := true, hasWrite := true }

/-- The parameters of 00 R5, and the Boolean of 90 C1. -/
structure Config where
  /-- `ROM_WINDOWS` -/
  romWindows : List RomWindow
  /-- `HOOKS` in registration order, the timer's hook among them: its start is `TIMER_BASE`. -/
  hooks : List Hook
  /-- `TIMER_REG_LO` -/
  timerRegLo : Fin 8
  /-- `TIMER_REG_HI` -/
  timerRegHi : Fin 8
  /-- `ZP_PTR_WRAP` (92 D6) -/
  zpPtrWrap : Bool
  /-- `CYCLES` (92 D7): `none` is the table of 30 R74; `some t` is another one, indexed by the opcode byte. -/
  cycles : Option (List CycleEntry)
  /-- `BRANCH_EXTRA` (92 D8), the cycles of a taken branch. -/
  branchTaken : Nat
  /-- `BRANCH_EXTRA` (92 D8), the further cycles when the target is on another page. -/
  branchPage : Nat
  /-- `IRQ_RECHECK_MASK_AT_SERVICE` (90 C1), false in this spec. -/
  irqRecheckMask : Bool
  deriving DecidableEq, Repr

/-- The defaults of 00 R5. PRESUMED: 0xE840, 4 and 5 are the PET's VIA (log 3). -/
def Config.default : Config :=
  { romWindows := []
    hooks := [timerHook 0xE840]
    timerRegLo := 4
    timerRegHi := 5
    zpPtrWrap := true
    cycles := none
    branchTaken := 1
    branchPage := 1
    irqRecheckMask := false }

/-- FREE VALUE (92 D27, log 11): what the n-th external read handler to run answers, a byte or "no value",
once the answers listed in the state are used up. It has no body: nothing can be proved of it. -/
opaque Config.freeHookAnswer : Nat → Option Byte

end Sys2Proof
end

