-- ==== Sys2Proof/Syntax.lean ====
section
/-! DEFINITION. The instruction set: 56 official mnemonics (30_encoding.md R74) and the fallback no-op of the 105
unofficial opcode bytes (30 R75). The 256 rows of the opcode table are the pairs of a mnemonic and an addressing
mode, so a constructor is a mnemonic and its operand says the mode (log 1). -/

namespace Sys2Proof

/-- The thirteen addressing modes (40 R93 to R105). -/
inductive Mode where
  | imp | acc | imm | zp | zpX | zpY | abs | absX | absY | ind | indX | indY | rel
  deriving DecidableEq, Repr

/-- An operand in one of the twelve modes that have one, with the value its bytes assemble to (30 R72). -/
inductive Operand where
  /-- register `A` (40 R94) -/
  | acc
  /-- `#v` (40 R95) -/
  | imm (v : Byte)
  /-- `a` (40 R96) -/
  | zp (a : Byte)
  /-- `a,X` in page 0 (40 R97) -/
  | zpX (a : Byte)
  /-- `a,Y` in page 0 (40 R98) -/
  | zpY (a : Byte)
  /-- `a` (40 R99) -/
  | abs (a : Word)
  /-- `a,X` (40 R100) -/
  | absX (a : Word)
  /-- `a,Y` (40 R101) -/
  | absY (a : Word)
  /-- `(a)` (40 R104) -/
  | ind (a : Word)
  /-- `(a,X)` (40 R102) -/
  | indX (a : Byte)
  /-- `(a),Y` (40 R103) -/
  | indY (a : Byte)
  /-- the signed displacement `d` (40 R105) -/
  | rel (d : Byte)
  deriving DecidableEq, Repr

/-- The mode of an operand. -/
def Operand.mode : Operand → Mode
  | .acc => .acc
  | .imm _ => .imm
  | .zp _ => .zp
  | .zpX _ => .zpX
  | .zpY _ => .zpY
  | .abs _ => .abs
  | .absX _ => .absX
  | .absY _ => .absY
  | .ind _ => .ind
  | .indX _ => .indX
  | .indY _ => .indY
  | .rel _ => .rel

/-- The operation names of the opcode table (30 R74, R75). -/
inductive Mnemonic where
  | adc | and | asl | bcc | bcs | beq | bit | bmi | bne | bpl | brk | bvc | bvs | clc
  | cld | cli | clv | cmp | cpx | cpy | dec | dex | dey | eor | inc | inx | iny | jmp
  | jsr | lda | ldx | ldy | lsr | nop | ora | pha | php | pla | plp | rol | ror | rti
  | rts | sbc | sec | sed | sei | sta | stx | sty | tax | tay | tsx | txa | txs | tya
  | unofficialNop
  deriving DecidableEq, Repr

/-- An instruction. The rule of each constructor is the one its row of 30 R74 names. -/
inductive Instr where
  /-- `ADC` (R142) -/
  | adc (o : Operand)
  /-- `AND` (R160) -/
  | and (o : Operand)
  /-- `ASL` (R165) -/
  | asl (o : Operand)
  /-- `BCC` (R188) -/
  | bcc (o : Operand)
  /-- `BCS` (R189) -/
  | bcs (o : Operand)
  /-- `BEQ` (R191) -/
  | beq (o : Operand)
  /-- `BIT` (R163) -/
  | bit (o : Operand)
  /-- `BMI` (R185) -/
  | bmi (o : Operand)
  /-- `BNE` (R190) -/
  | bne (o : Operand)
  /-- `BPL` (R184) -/
  | bpl (o : Operand)
  /-- `BRK` (R212) -/
  | brk
  /-- `BVC` (R186) -/
  | bvc (o : Operand)
  /-- `BVS` (R187) -/
  | bvs (o : Operand)
  /-- `CLC` (R204) -/
  | clc
  /-- `CLD` (R208) -/
  | cld
  /-- `CLI` (R206) -/
  | cli
  /-- `CLV` (R210) -/
  | clv
  /-- `CMP` (R145) -/
  | cmp (o : Operand)
  /-- `CPX` (R146) -/
  | cpx (o : Operand)
  /-- `CPY` (R147) -/
  | cpy (o : Operand)
  /-- `DEC` (R149) -/
  | dec (o : Operand)
  /-- `DEX` (R152) -/
  | dex
  /-- `DEY` (R153) -/
  | dey
  /-- `EOR` (R162) -/
  | eor (o : Operand)
  /-- `INC` (R148) -/
  | inc (o : Operand)
  /-- `INX` (R150) -/
  | inx
  /-- `INY` (R151) -/
  | iny
  /-- `JMP` (R180) -/
  | jmp (o : Operand)
  /-- `JSR` (R181) -/
  | jsr (o : Operand)
  /-- `LDA` (R120) -/
  | lda (o : Operand)
  /-- `LDX` (R121) -/
  | ldx (o : Operand)
  /-- `LDY` (R122) -/
  | ldy (o : Operand)
  /-- `LSR` (R166) -/
  | lsr (o : Operand)
  /-- `NOP` (R211) -/
  | nop
  /-- `ORA` (R161) -/
  | ora (o : Operand)
  /-- `PHA` (R200) -/
  | pha
  /-- `PHP` (R201) -/
  | php
  /-- `PLA` (R202) -/
  | pla
  /-- `PLP` (R203) -/
  | plp
  /-- `ROL` (R167) -/
  | rol (o : Operand)
  /-- `ROR` (R168) -/
  | ror (o : Operand)
  /-- `RTI` (R213) -/
  | rti
  /-- `RTS` (R182) -/
  | rts
  /-- `SBC` (R143) -/
  | sbc (o : Operand)
  /-- `SEC` (R205) -/
  | sec
  /-- `SED` (R209) -/
  | sed
  /-- `SEI` (R207) -/
  | sei
  /-- `STA` (R123) -/
  | sta (o : Operand)
  /-- `STX` (R124) -/
  | stx (o : Operand)
  /-- `STY` (R125) -/
  | sty (o : Operand)
  /-- `TAX` (R126) -/
  | tax
  /-- `TAY` (R127) -/
  | tay
  /-- `TSX` (R130) -/
  | tsx
  /-- `TXA` (R128) -/
  | txa
  /-- `TXS` (R131) -/
  | txs
  /-- `TYA` (R129) -/
  | tya
  /-- `UNOFFICIAL_NOP` (R214), with the opcode byte it was decoded from. -/
  | unofficialNop (opcode : Byte)
  deriving DecidableEq, Repr

/-- The mnemonic of an instruction. -/
def Instr.mnemonic : Instr → Mnemonic
  | .adc _ => .adc
  | .and _ => .and
  | .asl _ => .asl
  | .bcc _ => .bcc
  | .bcs _ => .bcs
  | .beq _ => .beq
  | .bit _ => .bit
  | .bmi _ => .bmi
  | .bne _ => .bne
  | .bpl _ => .bpl
  | .brk => .brk
  | .bvc _ => .bvc
  | .bvs _ => .bvs
  | .clc => .clc
  | .cld => .cld
  | .cli => .cli
  | .clv => .clv
  | .cmp _ => .cmp
  | .cpx _ => .cpx
  | .cpy _ => .cpy
  | .dec _ => .dec
  | .dex => .dex
  | .dey => .dey
  | .eor _ => .eor
  | .inc _ => .inc
  | .inx => .inx
  | .iny => .iny
  | .jmp _ => .jmp
  | .jsr _ => .jsr
  | .lda _ => .lda
  | .ldx _ => .ldx
  | .ldy _ => .ldy
  | .lsr _ => .lsr
  | .nop => .nop
  | .ora _ => .ora
  | .pha => .pha
  | .php => .php
  | .pla => .pla
  | .plp => .plp
  | .rol _ => .rol
  | .ror _ => .ror
  | .rti => .rti
  | .rts => .rts
  | .sbc _ => .sbc
  | .sec => .sec
  | .sed => .sed
  | .sei => .sei
  | .sta _ => .sta
  | .stx _ => .stx
  | .sty _ => .sty
  | .tax => .tax
  | .tay => .tay
  | .tsx => .tsx
  | .txa => .txa
  | .txs => .txs
  | .tya => .tya
  | .unofficialNop _ => .unofficialNop

/-- The operand of an instruction; none in implied mode (40 R93). -/
def Instr.operand : Instr → Option Operand
  | .adc o => some o
  | .and o => some o
  | .asl o => some o
  | .bcc o => some o
  | .bcs o => some o
  | .beq o => some o
  | .bit o => some o
  | .bmi o => some o
  | .bne o => some o
  | .bpl o => some o
  | .brk => none
  | .bvc o => some o
  | .bvs o => some o
  | .clc => none
  | .cld => none
  | .cli => none
  | .clv => none
  | .cmp o => some o
  | .cpx o => some o
  | .cpy o => some o
  | .dec o => some o
  | .dex => none
  | .dey => none
  | .eor o => some o
  | .inc o => some o
  | .inx => none
  | .iny => none
  | .jmp o => some o
  | .jsr o => some o
  | .lda o => some o
  | .ldx o => some o
  | .ldy o => some o
  | .lsr o => some o
  | .nop => none
  | .ora o => some o
  | .pha => none
  | .php => none
  | .pla => none
  | .plp => none
  | .rol o => some o
  | .ror o => some o
  | .rti => none
  | .rts => none
  | .sbc o => some o
  | .sec => none
  | .sed => none
  | .sei => none
  | .sta o => some o
  | .stx o => some o
  | .sty o => some o
  | .tax => none
  | .tay => none
  | .tsx => none
  | .txa => none
  | .txs => none
  | .tya => none
  | .unofficialNop _ => none

/-- The addressing mode of an instruction. -/
def Instr.mode (i : Instr) : Mode :=
  match i.operand with
  | some o => o.mode
  | none => .imp

/-- The opcode byte an `UNOFFICIAL_NOP` carries; none for an official instruction. -/
def Instr.fallbackByte : Instr → Option Byte
  | .adc _ => none
  | .and _ => none
  | .asl _ => none
  | .bcc _ => none
  | .bcs _ => none
  | .beq _ => none
  | .bit _ => none
  | .bmi _ => none
  | .bne _ => none
  | .bpl _ => none
  | .brk => none
  | .bvc _ => none
  | .bvs _ => none
  | .clc => none
  | .cld => none
  | .cli => none
  | .clv => none
  | .cmp _ => none
  | .cpx _ => none
  | .cpy _ => none
  | .dec _ => none
  | .dex => none
  | .dey => none
  | .eor _ => none
  | .inc _ => none
  | .inx => none
  | .iny => none
  | .jmp _ => none
  | .jsr _ => none
  | .lda _ => none
  | .ldx _ => none
  | .ldy _ => none
  | .lsr _ => none
  | .nop => none
  | .ora _ => none
  | .pha => none
  | .php => none
  | .pla => none
  | .plp => none
  | .rol _ => none
  | .ror _ => none
  | .rti => none
  | .rts => none
  | .sbc _ => none
  | .sec => none
  | .sed => none
  | .sei => none
  | .sta _ => none
  | .stx _ => none
  | .sty _ => none
  | .tax => none
  | .tay => none
  | .tsx => none
  | .txa => none
  | .txs => none
  | .tya => none
  | .unofficialNop op => some op

end Sys2Proof
end

