-- ==== Sys2Proof/WellFormed.lean ====
section
/-! DEFINITION. Which terms of Instr are instructions of the machine: the operand forms that the rule of each
mnemonic lists (the 'Operands:' lines of files 41 to 45), and the 105 bytes of 30_encoding.md R75. This is
written from the rules, not from the opcode table of Decode.lean: that the two agree is a claim. -/

namespace Sys2Proof

/-- The addressing modes the rule of a mnemonic gives it. -/
def Mnemonic.modes : Mnemonic → List Mode
  | .adc => [.imm, .zp, .zpX, .abs, .absX, .absY, .indX, .indY]
  | .and => [.imm, .zp, .zpX, .abs, .absX, .absY, .indX, .indY]
  | .asl => [.acc, .zp, .zpX, .abs, .absX]
  | .bcc => [.rel]
  | .bcs => [.rel]
  | .beq => [.rel]
  | .bit => [.zp, .abs]
  | .bmi => [.rel]
  | .bne => [.rel]
  | .bpl => [.rel]
  | .brk => [.imp]
  | .bvc => [.rel]
  | .bvs => [.rel]
  | .clc => [.imp]
  | .cld => [.imp]
  | .cli => [.imp]
  | .clv => [.imp]
  | .cmp => [.imm, .zp, .zpX, .abs, .absX, .absY, .indX, .indY]
  | .cpx => [.imm, .zp, .abs]
  | .cpy => [.imm, .zp, .abs]
  | .dec => [.zp, .zpX, .abs, .absX]
  | .dex => [.imp]
  | .dey => [.imp]
  | .eor => [.imm, .zp, .zpX, .abs, .absX, .absY, .indX, .indY]
  | .inc => [.zp, .zpX, .abs, .absX]
  | .inx => [.imp]
  | .iny => [.imp]
  | .jmp => [.abs, .ind]
  | .jsr => [.abs]
  | .lda => [.imm, .zp, .zpX, .abs, .absX, .absY, .indX, .indY]
  | .ldx => [.imm, .zp, .zpY, .abs, .absY]
  | .ldy => [.imm, .zp, .zpX, .abs, .absX]
  | .lsr => [.acc, .zp, .zpX, .abs, .absX]
  | .nop => [.imp]
  | .ora => [.imm, .zp, .zpX, .abs, .absX, .absY, .indX, .indY]
  | .pha => [.imp]
  | .php => [.imp]
  | .pla => [.imp]
  | .plp => [.imp]
  | .rol => [.acc, .zp, .zpX, .abs, .absX]
  | .ror => [.acc, .zp, .zpX, .abs, .absX]
  | .rti => [.imp]
  | .rts => [.imp]
  | .sbc => [.imm, .zp, .zpX, .abs, .absX, .absY, .indX, .indY]
  | .sec => [.imp]
  | .sed => [.imp]
  | .sei => [.imp]
  | .sta => [.zp, .zpX, .abs, .absX, .absY, .indX, .indY]
  | .stx => [.zp, .zpY, .abs]
  | .sty => [.zp, .zpX, .abs]
  | .tax => [.imp]
  | .tay => [.imp]
  | .tsx => [.imp]
  | .txa => [.imp]
  | .txs => [.imp]
  | .tya => [.imp]
  | .unofficialNop => [.imp]

/-- The 105 unofficial opcode bytes, in the order of 30 R75. -/
def unofficialBytes : List Byte :=
  [0x02, 0x03, 0x04, 0x07, 0x0B, 0x0C, 0x0F, 0x12, 0x13, 0x14, 0x17, 0x1A, 0x1B, 0x1C, 0x1F] ++
  [0x22, 0x23, 0x27, 0x2B, 0x2F, 0x32, 0x33, 0x34, 0x37, 0x3A, 0x3B, 0x3C, 0x3F, 0x42, 0x43] ++
  [0x44, 0x47, 0x4B, 0x4F, 0x52, 0x53, 0x54, 0x57, 0x5A, 0x5B, 0x5C, 0x5F, 0x62, 0x63, 0x64] ++
  [0x67, 0x6B, 0x6F, 0x72, 0x73, 0x74, 0x77, 0x7A, 0x7B, 0x7C, 0x7F, 0x80, 0x82, 0x83, 0x87] ++
  [0x89, 0x8B, 0x8F, 0x92, 0x93, 0x97, 0x9B, 0x9C, 0x9E, 0x9F, 0xA3, 0xA7, 0xAB, 0xAF, 0xB2] ++
  [0xB3, 0xB7, 0xBB, 0xBF, 0xC2, 0xC3, 0xC7, 0xCB, 0xCF, 0xD2, 0xD3, 0xD4, 0xD7, 0xDA, 0xDB] ++
  [0xDC, 0xDF, 0xE2, 0xE3, 0xE7, 0xEB, 0xEF, 0xF2, 0xF3, 0xF4, 0xF7, 0xFA, 0xFB, 0xFC, 0xFF]

/-- Check 1: the mnemonic has a form in the mode of the operand. -/
def Instr.formExists (i : Instr) : Bool :=
  i.mnemonic.modes.contains i.mode

/-- Check 2: the opcode byte of an `UNOFFICIAL_NOP` is one of the 105. -/
def Instr.fallbackIsUnofficial (i : Instr) : Bool :=
  match i.fallbackByte with
  | some op => unofficialBytes.contains op
  | none => true

/-- A well-formed instruction: one that some opcode byte of 30 R74 or R75 encodes. -/
def Instr.wf (i : Instr) : Bool :=
  i.formExists && i.fallbackIsUnofficial

end Sys2Proof
end

