-- ==== Sys2Proof/Decode.lean ====
section
/-! DEFINITION. The decoder, total on any bytes, and the encoder, both from the opcode table of
30_encoding.md R74. -/

namespace Sys2Proof

/-- A row of the table of 30 R74: an opcode byte and its descriptor (10 R21). -/
structure Row where
  opcode : Byte
  mnemonic : Mnemonic
  mode : Mode
  base : Nat
  pageCross : Bool
  deriving DecidableEq, Repr

/-- Rows of R74: LDA LDX LDY STA STX STY. -/
def loadStoreRows : List Row :=
  [⟨0xA9, .lda, .imm, 2, false⟩,
   ⟨0xA5, .lda, .zp, 3, false⟩,
   ⟨0xB5, .lda, .zpX, 4, false⟩,
   ⟨0xAD, .lda, .abs, 4, false⟩,
   ⟨0xBD, .lda, .absX, 4, true⟩,
   ⟨0xB9, .lda, .absY, 4, true⟩,
   ⟨0xA1, .lda, .indX, 6, false⟩,
   ⟨0xB1, .lda, .indY, 5, true⟩,
   ⟨0xA2, .ldx, .imm, 2, false⟩,
   ⟨0xA6, .ldx, .zp, 3, false⟩,
   ⟨0xB6, .ldx, .zpY, 4, false⟩,
   ⟨0xAE, .ldx, .abs, 4, false⟩,
   ⟨0xBE, .ldx, .absY, 4, true⟩,
   ⟨0xA0, .ldy, .imm, 2, false⟩,
   ⟨0xA4, .ldy, .zp, 3, false⟩,
   ⟨0xB4, .ldy, .zpX, 4, false⟩,
   ⟨0xAC, .ldy, .abs, 4, false⟩,
   ⟨0xBC, .ldy, .absX, 4, true⟩,
   ⟨0x85, .sta, .zp, 3, false⟩,
   ⟨0x95, .sta, .zpX, 4, false⟩,
   ⟨0x8D, .sta, .abs, 4, false⟩,
   ⟨0x9D, .sta, .absX, 5, false⟩,
   ⟨0x99, .sta, .absY, 5, false⟩,
   ⟨0x81, .sta, .indX, 6, false⟩,
   ⟨0x91, .sta, .indY, 6, false⟩,
   ⟨0x86, .stx, .zp, 3, false⟩,
   ⟨0x96, .stx, .zpY, 4, false⟩,
   ⟨0x8E, .stx, .abs, 4, false⟩,
   ⟨0x84, .sty, .zp, 3, false⟩,
   ⟨0x94, .sty, .zpX, 4, false⟩,
   ⟨0x8C, .sty, .abs, 4, false⟩]

/-- Rows of R74: TAX TAY TSX TXA TXS TYA. -/
def transferRows : List Row :=
  [⟨0xAA, .tax, .imp, 2, false⟩,
   ⟨0xA8, .tay, .imp, 2, false⟩,
   ⟨0xBA, .tsx, .imp, 2, false⟩,
   ⟨0x8A, .txa, .imp, 2, false⟩,
   ⟨0x9A, .txs, .imp, 2, false⟩,
   ⟨0x98, .tya, .imp, 2, false⟩]

/-- Rows of R74: ADC SBC. -/
def adderRows : List Row :=
  [⟨0x69, .adc, .imm, 2, false⟩,
   ⟨0x65, .adc, .zp, 3, false⟩,
   ⟨0x75, .adc, .zpX, 4, false⟩,
   ⟨0x6D, .adc, .abs, 4, false⟩,
   ⟨0x7D, .adc, .absX, 4, true⟩,
   ⟨0x79, .adc, .absY, 4, true⟩,
   ⟨0x61, .adc, .indX, 6, false⟩,
   ⟨0x71, .adc, .indY, 5, true⟩,
   ⟨0xE9, .sbc, .imm, 2, false⟩,
   ⟨0xE5, .sbc, .zp, 3, false⟩,
   ⟨0xF5, .sbc, .zpX, 4, false⟩,
   ⟨0xED, .sbc, .abs, 4, false⟩,
   ⟨0xFD, .sbc, .absX, 4, true⟩,
   ⟨0xF9, .sbc, .absY, 4, true⟩,
   ⟨0xE1, .sbc, .indX, 6, false⟩,
   ⟨0xF1, .sbc, .indY, 5, true⟩]

/-- Rows of R74: CMP CPX CPY. -/
def compareRows : List Row :=
  [⟨0xC9, .cmp, .imm, 2, false⟩,
   ⟨0xC5, .cmp, .zp, 3, false⟩,
   ⟨0xD5, .cmp, .zpX, 4, false⟩,
   ⟨0xCD, .cmp, .abs, 4, false⟩,
   ⟨0xDD, .cmp, .absX, 4, true⟩,
   ⟨0xD9, .cmp, .absY, 4, true⟩,
   ⟨0xC1, .cmp, .indX, 6, false⟩,
   ⟨0xD1, .cmp, .indY, 5, true⟩,
   ⟨0xE0, .cpx, .imm, 2, false⟩,
   ⟨0xE4, .cpx, .zp, 3, false⟩,
   ⟨0xEC, .cpx, .abs, 4, false⟩,
   ⟨0xC0, .cpy, .imm, 2, false⟩,
   ⟨0xC4, .cpy, .zp, 3, false⟩,
   ⟨0xCC, .cpy, .abs, 4, false⟩]

/-- Rows of R74: INC DEC INX INY DEX DEY. -/
def countRows : List Row :=
  [⟨0xE6, .inc, .zp, 5, false⟩,
   ⟨0xF6, .inc, .zpX, 6, false⟩,
   ⟨0xEE, .inc, .abs, 6, false⟩,
   ⟨0xFE, .inc, .absX, 7, false⟩,
   ⟨0xC6, .dec, .zp, 5, false⟩,
   ⟨0xD6, .dec, .zpX, 6, false⟩,
   ⟨0xCE, .dec, .abs, 6, false⟩,
   ⟨0xDE, .dec, .absX, 7, false⟩,
   ⟨0xE8, .inx, .imp, 2, false⟩,
   ⟨0xC8, .iny, .imp, 2, false⟩,
   ⟨0xCA, .dex, .imp, 2, false⟩,
   ⟨0x88, .dey, .imp, 2, false⟩]

/-- Rows of R74: AND ORA EOR BIT. -/
def logicRows : List Row :=
  [⟨0x29, .and, .imm, 2, false⟩,
   ⟨0x25, .and, .zp, 3, false⟩,
   ⟨0x35, .and, .zpX, 4, false⟩,
   ⟨0x2D, .and, .abs, 4, false⟩,
   ⟨0x3D, .and, .absX, 4, true⟩,
   ⟨0x39, .and, .absY, 4, true⟩,
   ⟨0x21, .and, .indX, 6, false⟩,
   ⟨0x31, .and, .indY, 5, true⟩,
   ⟨0x09, .ora, .imm, 2, false⟩,
   ⟨0x05, .ora, .zp, 3, false⟩,
   ⟨0x15, .ora, .zpX, 4, false⟩,
   ⟨0x0D, .ora, .abs, 4, false⟩,
   ⟨0x1D, .ora, .absX, 4, true⟩,
   ⟨0x19, .ora, .absY, 4, true⟩,
   ⟨0x01, .ora, .indX, 6, false⟩,
   ⟨0x11, .ora, .indY, 5, true⟩,
   ⟨0x49, .eor, .imm, 2, false⟩,
   ⟨0x45, .eor, .zp, 3, false⟩,
   ⟨0x55, .eor, .zpX, 4, false⟩,
   ⟨0x4D, .eor, .abs, 4, false⟩,
   ⟨0x5D, .eor, .absX, 4, true⟩,
   ⟨0x59, .eor, .absY, 4, true⟩,
   ⟨0x41, .eor, .indX, 6, false⟩,
   ⟨0x51, .eor, .indY, 5, true⟩,
   ⟨0x24, .bit, .zp, 3, false⟩,
   ⟨0x2C, .bit, .abs, 4, false⟩]

/-- Rows of R74: ASL LSR ROL ROR. -/
def shiftRows : List Row :=
  [⟨0x0A, .asl, .acc, 2, false⟩,
   ⟨0x06, .asl, .zp, 5, false⟩,
   ⟨0x16, .asl, .zpX, 6, false⟩,
   ⟨0x0E, .asl, .abs, 6, false⟩,
   ⟨0x1E, .asl, .absX, 7, false⟩,
   ⟨0x4A, .lsr, .acc, 2, false⟩,
   ⟨0x46, .lsr, .zp, 5, false⟩,
   ⟨0x56, .lsr, .zpX, 6, false⟩,
   ⟨0x4E, .lsr, .abs, 6, false⟩,
   ⟨0x5E, .lsr, .absX, 7, false⟩,
   ⟨0x2A, .rol, .acc, 2, false⟩,
   ⟨0x26, .rol, .zp, 5, false⟩,
   ⟨0x36, .rol, .zpX, 6, false⟩,
   ⟨0x2E, .rol, .abs, 6, false⟩,
   ⟨0x3E, .rol, .absX, 7, false⟩,
   ⟨0x6A, .ror, .acc, 2, false⟩,
   ⟨0x66, .ror, .zp, 5, false⟩,
   ⟨0x76, .ror, .zpX, 6, false⟩,
   ⟨0x6E, .ror, .abs, 6, false⟩,
   ⟨0x7E, .ror, .absX, 7, false⟩]

/-- Rows of R74: JMP JSR RTS BCC BCS BEQ BMI BNE BPL BVC BVS. -/
def flowRows : List Row :=
  [⟨0x4C, .jmp, .abs, 3, false⟩,
   ⟨0x6C, .jmp, .ind, 5, false⟩,
   ⟨0x20, .jsr, .abs, 6, false⟩,
   ⟨0x60, .rts, .imp, 6, false⟩,
   ⟨0x90, .bcc, .rel, 2, false⟩,
   ⟨0xB0, .bcs, .rel, 2, false⟩,
   ⟨0xF0, .beq, .rel, 2, false⟩,
   ⟨0x30, .bmi, .rel, 2, false⟩,
   ⟨0xD0, .bne, .rel, 2, false⟩,
   ⟨0x10, .bpl, .rel, 2, false⟩,
   ⟨0x50, .bvc, .rel, 2, false⟩,
   ⟨0x70, .bvs, .rel, 2, false⟩]

/-- Rows of R74: PHA PHP PLA PLP CLC CLD CLI CLV SEC SED SEI NOP BRK RTI. -/
def systemRows : List Row :=
  [⟨0x48, .pha, .imp, 3, false⟩,
   ⟨0x08, .php, .imp, 3, false⟩,
   ⟨0x68, .pla, .imp, 4, false⟩,
   ⟨0x28, .plp, .imp, 4, false⟩,
   ⟨0x18, .clc, .imp, 2, false⟩,
   ⟨0xD8, .cld, .imp, 2, false⟩,
   ⟨0x58, .cli, .imp, 2, false⟩,
   ⟨0xB8, .clv, .imp, 2, false⟩,
   ⟨0x38, .sec, .imp, 2, false⟩,
   ⟨0xF8, .sed, .imp, 2, false⟩,
   ⟨0x78, .sei, .imp, 2, false⟩,
   ⟨0xEA, .nop, .imp, 2, false⟩,
   ⟨0x00, .brk, .imp, 7, false⟩,
   ⟨0x40, .rti, .imp, 6, false⟩]

/-- The 151 official opcodes (30 R74). -/
def opcodeTable : List Row :=
  loadStoreRows ++ transferRows ++ adderRows ++ compareRows ++ countRows ++
  logicRows ++ shiftRows ++ flowRows ++ systemRows

/-- The row of an opcode byte; none for an unofficial one (30 R73, R75). -/
def lookupOpcode (op : Byte) : Option Row :=
  opcodeTable.find? (fun r => r.opcode == op)

/-- The row of a mnemonic in a mode; none where the mnemonic has no such form. -/
def lookupForm (m : Mnemonic) (d : Mode) : Option Row :=
  opcodeTable.find? (fun r => r.mnemonic == m && r.mode == d)

/-- The descriptor of an opcode byte, `TABLE[opcode]`: total, an unofficial byte has the fallback entry of
2 base cycles in implied mode (30 R73, R75). -/
def descriptor (op : Byte) : Row :=
  (lookupOpcode op).getD ⟨op, .unofficialNop, .imp, 2, false⟩

/-- How many operand bytes a mode takes (30 R70, R71). -/
def Mode.operandBytes : Mode → Nat
  | .imp | .acc => 0
  | .imm | .zp | .zpX | .zpY | .indX | .indY | .rel => 1
  | .abs | .absX | .absY | .ind => 2

/-- A 16-bit operand from its two bytes, the low byte first (30 R72). -/
def littleEndian (lo hi : Byte) : Word :=
  hi ++ lo

/-- The low byte of a 16-bit value. -/
def lowByte (w : Word) : Byte :=
  w.extractLsb' 0 8

/-- The high byte of a 16-bit value. -/
def highByte (w : Word) : Byte :=
  w.extractLsb' 8 8

/-- The operand of a mode from the bytes after the opcode (30 R72); a byte the mode does not take is ignored. -/
def Mode.operand (b1 b2 : Byte) : Mode → Option Operand
  | .imp => none
  | .acc => some .acc
  | .imm => some (.imm b1)
  | .zp => some (.zp b1)
  | .zpX => some (.zpX b1)
  | .zpY => some (.zpY b1)
  | .abs => some (.abs (littleEndian b1 b2))
  | .absX => some (.absX (littleEndian b1 b2))
  | .absY => some (.absY (littleEndian b1 b2))
  | .ind => some (.ind (littleEndian b1 b2))
  | .indX => some (.indX b1)
  | .indY => some (.indY b1)
  | .rel => some (.rel b1)

/-- The instruction of a mnemonic and an operand; none where the mnemonic does not take what it is given. -/
def Mnemonic.build : Mnemonic → Option Operand → Option Instr
  | .adc, some o => some (.adc o)
  | .and, some o => some (.and o)
  | .asl, some o => some (.asl o)
  | .bcc, some o => some (.bcc o)
  | .bcs, some o => some (.bcs o)
  | .beq, some o => some (.beq o)
  | .bit, some o => some (.bit o)
  | .bmi, some o => some (.bmi o)
  | .bne, some o => some (.bne o)
  | .bpl, some o => some (.bpl o)
  | .brk, none => some .brk
  | .bvc, some o => some (.bvc o)
  | .bvs, some o => some (.bvs o)
  | .clc, none => some .clc
  | .cld, none => some .cld
  | .cli, none => some .cli
  | .clv, none => some .clv
  | .cmp, some o => some (.cmp o)
  | .cpx, some o => some (.cpx o)
  | .cpy, some o => some (.cpy o)
  | .dec, some o => some (.dec o)
  | .dex, none => some .dex
  | .dey, none => some .dey
  | .eor, some o => some (.eor o)
  | .inc, some o => some (.inc o)
  | .inx, none => some .inx
  | .iny, none => some .iny
  | .jmp, some o => some (.jmp o)
  | .jsr, some o => some (.jsr o)
  | .lda, some o => some (.lda o)
  | .ldx, some o => some (.ldx o)
  | .ldy, some o => some (.ldy o)
  | .lsr, some o => some (.lsr o)
  | .nop, none => some .nop
  | .ora, some o => some (.ora o)
  | .pha, none => some .pha
  | .php, none => some .php
  | .pla, none => some .pla
  | .plp, none => some .plp
  | .rol, some o => some (.rol o)
  | .ror, some o => some (.ror o)
  | .rti, none => some .rti
  | .rts, none => some .rts
  | .sbc, some o => some (.sbc o)
  | .sec, none => some .sec
  | .sed, none => some .sed
  | .sei, none => some .sei
  | .sta, some o => some (.sta o)
  | .stx, some o => some (.stx o)
  | .sty, some o => some (.sty o)
  | .tax, none => some .tax
  | .tay, none => some .tay
  | .tsx, none => some .tsx
  | .txa, none => some .txa
  | .txs, none => some .txs
  | .tya, none => some .tya
  | _, _ => none

/-- The instruction of an opcode byte and the two bytes after it (30 R73): an official row builds its
instruction, and every other opcode byte is the fallback no-op (30 R75). -/
def decodeOp (op b1 b2 : Byte) : Instr :=
  match lookupOpcode op with
  | some r => (r.mnemonic.build (r.mode.operand b1 b2)).getD (.unofficialNop op)
  | none => .unofficialNop op

/-- Why a list of bytes is not an instruction: it is too short. No opcode byte is illegal (30 R75). -/
inductive DecodeError where
  /-- There is no opcode byte. -/
  | noOpcode
  /-- The operand bytes of this opcode are not all there. -/
  | operandMissing (opcode : Byte)
  deriving DecidableEq, Repr

/-- What the decoder answers: an instruction and the bytes after it, or a rejection by name. -/
inductive Decoded where
  | instr (i : Instr) (rest : List Byte)
  | reject (e : DecodeError)
  deriving DecidableEq, Repr

/-- The decoder (30 R70 to R75): the opcode byte alone decides how many bytes it takes (30 R71). -/
def decode : List Byte → Decoded
  | [] => .reject .noOpcode
  | op :: rest =>
    match (descriptor op).mode.operandBytes, rest with
    | 0, rest => .instr (decodeOp op 0 0) rest
    | 1, b1 :: rest => .instr (decodeOp op b1 0) rest
    | 2, b1 :: b2 :: rest => .instr (decodeOp op b1 b2) rest
    | _, _ => .reject (.operandMissing op)

/-- The opcode byte of an instruction (30 R74, R75); none for a term that no opcode encodes. -/
def opcodeOf (i : Instr) : Option Byte :=
  match i.fallbackByte with
  | some op => if (lookupOpcode op).isNone then some op else none
  | none => (lookupForm i.mnemonic i.mode).map (·.opcode)

/-- The bytes of an operand, the low byte first (30 R72). -/
def Operand.bytes : Operand → List Byte
  | .acc => []
  | .imm v => [v]
  | .zp a => [a]
  | .zpX a => [a]
  | .zpY a => [a]
  | .abs a => [lowByte a, highByte a]
  | .absX a => [lowByte a, highByte a]
  | .absY a => [lowByte a, highByte a]
  | .ind a => [lowByte a, highByte a]
  | .indX a => [a]
  | .indY a => [a]
  | .rel d => [d]

/-- The operand bytes of an instruction. -/
def Instr.operandBytes (i : Instr) : List Byte :=
  match i.operand with
  | some o => o.bytes
  | none => []

/-- The encoder: the bytes of a well-formed instruction in memory order (30 R70); no bytes for another term. -/
def encode (i : Instr) : List Byte :=
  match opcodeOf i with
  | some op => op :: i.operandBytes
  | none => []

/-- The bytes of an instruction whose bits are `w`, numbered as the opcode table numbers them: the first byte is
bits 7..0, the next bits 15..8, the third bits 23..16; bits from `nbits` up are 0. -/
def tableBytes (nbits w : Nat) : List Byte :=
  let v := w % 2 ^ nbits
  [BitVec.ofNat 8 v, BitVec.ofNat 8 (v / 256), BitVec.ofNat 8 (v / 65536)]

/-- The instruction the decoder reads from the word `w` of the opcode table. -/
def decodeTableWord (nbits w : Nat) : Option Instr :=
  match decode (tableBytes nbits w) with
  | .instr i _ => some i
  | .reject _ => none

end Sys2Proof
end

