-- ==== Sys2Proof/Machine/State.lean ====
section
/-! DEFINITION. The state of the machine as plain data: everything 10_state.md gives it, and the model's own
fields for the environment (log 11, 12, 13). -/

namespace Sys2Proof.Machine

/-- RAM (10 R20) as the list of the cells that differ from what an unlisted address reads as, addresses strictly
rising. -/
abbrev Memory := List Host.Cell

/-- The timer (10 R22). -/
structure Timer where
  /-- `regs[0..7]` -/
  regs : Vector Byte 8
  /-- the reload value -/
  latch : Word
  /-- the live countdown value, signed (90 C4) -/
  counter : Int
  /-- set by a write of the latch's high byte, never cleared -/
  enabled : Bool
  deriving DecidableEq, Repr

/-- An access that the handler of an external device has seen (92 D27). -/
inductive HookAccess where
  | read (device : Nat) (addr : Word) (answer : Option Byte)
  | write (device : Nat) (addr : Word) (val : Byte)
  deriving DecidableEq, Repr

/-- The model's record of the external devices (log 11, 12). -/
structure HookIO where
  /-- the answers the next external read handlers give; when it is empty, the free value answers -/
  answers : List (Option Byte)
  /-- how many external read handlers have run: the index of the free value -/
  reads : Nat
  /-- the accesses external handlers have seen, newest first -/
  log : List HookAccess
  deriving DecidableEq, Repr

/-- A call the driver or an out-of-scope device makes between steps (60 R231, R250; 92 D23). -/
inductive Input where
  /-- one system step: `step()` and then `tick` with its cycles (60 R250) -/
  | system
  /-- `step()` alone (40 R90) -/
  | step
  /-- `tick(n)` alone (60 R248) -/
  | tick (n : Nat)
  /-- `nmi()` (60 R232) -/
  | nmi
  /-- `irq()` (60 R233) -/
  | irq
  /-- `reset()` (70 R270) -/
  | reset
  deriving DecidableEq, Repr

/-- The machine. -/
structure State where
  /-- `A` (10 R10) -/
  a : Byte
  /-- `X` (10 R10) -/
  x : Byte
  /-- `Y` (10 R10) -/
  y : Byte
  /-- `S` (10 R11) -/
  sp : Byte
  /-- `P` (10 R13) -/
  p : Byte
  /-- `PC` (10 R12) -/
  pc : Word
  /-- `cycleCounter` (10 R17) -/
  cycleCounter : Nat
  /-- `pendingNMI` (10 R18) -/
  pendingNMI : Bool
  /-- `pendingIRQ` (10 R18) -/
  pendingIRQ : Bool
  /-- whether the CPU has left its `Reset` state (40 R90, 92 D24) -/
  running : Bool
  /-- RAM (10 R20) -/
  ram : Memory
  /-- the timer (10 R22) -/
  timer : Timer
  /-- the configuration (10 R21), never changed by a step -/
  cfg : Config
  /-- the calls of the environment still to come; when it is empty, system steps follow (log 13) -/
  inputs : List Input
  /-- the external devices (log 11, 12) -/
  io : HookIO
  deriving DecidableEq, Repr

/-- Why the machine stops with a fault: never. It raises no synchronous exception and "there is no other fatal
condition inside `step()`" (60 R230), so this type has no constructor. -/
inductive Fault where
  deriving DecidableEq, Repr

/-- Why the model gives no next state. -/
inductive Refusal where
  /-- Raised by `exec`'s arm of an instruction that has no meaning yet (there is none). Safe. -/
  | notModelled (mnemonic : String)
  /-- Raised by every meaning for a term that no opcode byte of 30 R74, R75 encodes; never by `step`, whose
  decoder builds no such term (log 22). Safe. -/
  | noSuchForm (instr : Instr)
  /-- Raised by `step` when `step()` is called before the first `reset()` (10 R24, 92 D24). Safe. -/
  | beforeReset
  /-- Raised by `step` under a configuration that 20 R44, R45 and 93 U2, U3 say is refused (log 10). Safe. -/
  | illFormedConfiguration
  deriving DecidableEq, Repr

/-- The timer at power-on: disarmed, all zero (10 R24, 92 D22). -/
def Timer.powerOn : Timer :=
  { regs := Vector.replicate 8 0, latch := 0, counter := 0, enabled := false }

/-- The machine at power-on, before the first `reset()` (10 R24): the CPU's registers, its counter and its
pending flags hold any value (93 U6), so they are arguments. -/
def State.powerOn (cfg : Config) (ram : Memory) (a x y sp p : Byte) (pc : Word) (cycles : Nat) (nmi irq : Bool) :
    State :=
  { a := a, x := x, y := y, sp := sp, p := p, pc := pc, cycleCounter := cycles
    pendingNMI := nmi, pendingIRQ := irq, running := false
    ram := ram, timer := Timer.powerOn, cfg := cfg, inputs := [], io := ⟨[], 0, []⟩ }

/-- The machine right after reset (10 R24, 70 R270) with the default configuration and nothing mapped, so that
the reset vector reads 0x0000 (70 R272). DESIGN CHOICE: `A`, `X`, `Y` are 0, for which the spec gives no value
(log 5). -/
def State.reset : State :=
  { a := 0, x := 0, y := 0, sp := 0xFD, p := 0x24, pc := 0, cycleCounter := 0
    pendingNMI := false, pendingIRQ := false, running := true
    ram := [], timer := Timer.powerOn, cfg := Config.default, inputs := [], io := ⟨[], 0, []⟩ }

end Sys2Proof.Machine
end

