-- ==== Sys2Proof/Machine/Memory.lean ====
section
/-! DEFINITION. RAM as a list of cells in one canonical form (10 R20). -/

namespace Sys2Proof.Machine

/-- What a cell that nothing has written reads as: `RAM_INIT`'s default, 0x00 (00 R5, 92 D4, log 4). -/
def ramInit : Byte := 0

/-- The byte of a cell. -/
def Memory.read : Memory → Nat → Byte
  | [], _ => ramInit
  | (b, w) :: m, a => if b = a then w else Memory.read m a

/-- A cell in front of a memory, left out where it holds what an unlisted address reads as. -/
def Memory.put (a : Nat) (v : Byte) (m : Memory) : Memory :=
  if v = ramInit then m else (a, v) :: m

/-- Write a cell, keeping the canonical form. -/
def Memory.write : Memory → Nat → Byte → Memory
  | [], a, v => Memory.put a v []
  | (b, w) :: m, a, v =>
    if a < b then Memory.put a v ((b, w) :: m)
    else if a = b then Memory.put a v m
    else (b, w) :: Memory.write m a v

/-- The cells of `m` have addresses that rise strictly from `lo` on and lie below 65536, and no value that an
unlisted address reads as. -/
def Memory.wfFrom : Nat → Memory → Bool
  | _, [] => true
  | lo, (b, w) :: m => decide (lo ≤ b) && decide (b < 65536) && decide (w ≠ ramInit) && Memory.wfFrom (b + 1) m

/-- The canonical form. -/
def Memory.wf (m : Memory) : Bool :=
  Memory.wfFrom 0 m

/-- The RAM cell at a 16-bit address. -/
def State.cell (s : State) (a : Word) : Byte :=
  Memory.read s.ram a.toNat

end Sys2Proof.Machine
end

