-- ==== Sys2Proof/Machine/Bus.lean ====
section
/-! DEFINITION. The address bus (20_memory.md): configuration, the timer's registers, the read and the write
dispatch. -/

namespace Sys2Proof.Machine

/-- The addresses of a hook: `start <= addr <= stop` (20 R45). -/
def hookCovers (h : Hook) (a : Word) : Bool :=
  decide (h.start ≤ a.toNat) && decide (a.toNat ≤ h.stop)

/-- The addresses of a ROM window (20 R44). -/
def romCovers (w : RomWindow) (a : Word) : Bool :=
  decide (w.start ≤ a.toNat) && decide (a.toNat < w.start + w.bytes.length)

/-- The byte a ROM window gives an address: that of the window that covers it (20 R41). -/
def romByte : List RomWindow → Word → Option Byte
  | [], _ => none
  | w :: ws, a => if romCovers w a then w.bytes[a.toNat - w.start]? else romByte ws a

/-- No two ranges `[first, last]` of a list share an address. -/
def rangesDisjoint : List (Nat × Nat) → Bool
  | [] => true
  | r :: rs => rs.all (fun q => decide (r.2 < q.1) || decide (q.2 < r.1)) && rangesDisjoint rs

/-- The ranges of the ROM windows that are not empty. -/
def romRanges (ws : List RomWindow) : List (Nat × Nat) :=
  (ws.filter (fun w => !w.bytes.isEmpty)).map (fun w => (w.start, w.start + w.bytes.length - 1))

/-- The ranges of the hooks. -/
def hookRanges (hs : List Hook) : List (Nat × Nat) :=
  hs.map (fun h => (h.start, h.stop))

/-- Every ROM window lies inside the address space, and no two share an address (20 R44, 93 U2). -/
def romsWf (ws : List RomWindow) : Bool :=
  ws.all (fun w => decide (w.start + w.bytes.length ≤ 65536)) && rangesDisjoint (romRanges ws)

/-- A hook has `start <= stop <= 0xFFFF` (20 R45); the timer's is the eight addresses of 60 R243. DESIGN CHOICE (log 10):
92 D2 and D11 do not say whether the timer's hook may be one-sided; it must have its write handler here, so that every
write of its addresses is `writeRegister` as R243 says, and it may lack the read handler, which answers no value anyway
(60 R247). -/
def hookWf (h : Hook) : Bool :=
  decide (h.start ≤ h.stop) && decide (h.stop ≤ 0xFFFF) &&
    (decide (h.device ≠ .timer) || (decide (h.stop = h.start + 7) && h.hasWrite))

/-- Every hook is well formed, no two share an address (20 R45, 93 U3), and at most one is the timer's. -/
def hooksWf (hs : List Hook) : Bool :=
  hs.all hookWf && rangesDisjoint (hookRanges hs) && decide (hs.countP (fun h => decide (h.device = .timer)) ≤ 1)

/-- `CYCLES` gives each of the 256 opcodes at least 2 cycles (70 R280, 92 D7). -/
def cyclesWf : Option (List CycleEntry) → Bool
  | none => true
  | some t => decide (t.length = 256) && t.all (fun e => decide (2 ≤ e.base))

/-- A well-formed configuration: ROM windows, hooks, two distinct latch registers (92 D3), cycle counts. -/
def configWf (c : Config) : Bool :=
  romsWf c.romWindows && hooksWf c.hooks && decide (c.timerRegLo ≠ c.timerRegHi) && cyclesWf c.cycles

/-- `mapROM(start, bytes)` (20 R44): registers a window; none where the configuration it would give is refused. -/
def mapROM (start : Nat) (bytes : List Byte) (c : Config) : Option Config :=
  if romsWf (c.romWindows ++ [⟨start, bytes⟩]) then
    some { c with romWindows := c.romWindows ++ [⟨start, bytes⟩] }
  else none

/-- `hookIO(start, end, readFn, writeFn)` (20 R45): registers a hook; none, the configuration-time error, where
the range is inverted, outside the address space or overlapping. -/
def hookIO (h : Hook) (c : Config) : Option Config :=
  if hooksWf (c.hooks ++ [h]) then some { c with hooks := c.hooks ++ [h] } else none

/-- An external read handler runs (92 D27): it answers the next listed answer, or the free value. -/
def State.takeAnswer (id : Nat) (a : Word) (s : State) : Option Byte × State :=
  let answer := s.io.answers.headD (Config.freeHookAnswer s.io.reads)
  (answer, { s with io := ⟨s.io.answers.tail, s.io.reads + 1, .read id a answer :: s.io.log⟩ })

/-- The read handler of a device: the timer's answers "no value" (60 R247). -/
def State.deviceRead (d : Device) (a : Word) (s : State) : Option Byte × State :=
  match d with
  | .timer => (none, s)
  | .external id => s.takeAnswer id a

/-- The hooks asked in registration order; the first that answers a value wins (20 R41). -/
def State.hookRead (a : Word) : List Hook → State → Option Byte × State
  | [], s => (none, s)
  | h :: hs, s =>
    if hookCovers h a && h.hasRead then
      let r := s.deviceRead h.device a
      match r.1 with
      | some v => (some v, r.2)
      | none => State.hookRead a hs r.2
    else State.hookRead a hs s

/-- What lies under the hooks at an address: ROM, else RAM (20 R41). -/
def State.underHooks (s : State) (a : Word) : Byte :=
  (romByte s.cfg.romWindows a).getD (s.cell a)

/-- `AddressBus.read(addr)` (20 R41). -/
def State.busRead (s : State) (a : Word) : Byte × State :=
  let r := State.hookRead a s.cfg.hooks s
  (r.1.getD (r.2.underHooks a), r.2)

/-- `TimerDevice.writeRegister(i, v)` (60 R244, R245, R246). -/
def Timer.writeRegister (lo hi : Fin 8) (i : Fin 8) (v : Byte) (t : Timer) : Timer :=
  let t := { t with regs := t.regs.set i v }
  if i = lo then
    { t with latch := littleEndian v (highByte t.latch) }
  else if i = hi then
    let latch := littleEndian (lowByte t.latch) v
    { t with latch := latch, counter := latch.toNat, enabled := true }
  else t

/-- The write handler of a hook: the timer's is `writeRegister` of the register at the address (60 R243); an
external one takes the byte (92 D27). -/
def State.deviceWrite (h : Hook) (a : Word) (v : Byte) (s : State) : State :=
  match h.device with
  | .timer =>
    { s with timer :=
        s.timer.writeRegister s.cfg.timerRegLo s.cfg.timerRegHi (Fin.ofNat 8 (a.toNat - h.start)) v }
  | .external id => { s with io := { s.io with log := .write id a v :: s.io.log } }

/-- `AddressBus.write(addr, val)` (20 R42). -/
def State.busWrite (s : State) (a : Word) (v : Byte) : State :=
  match s.cfg.hooks.find? (fun h => hookCovers h a && h.hasWrite) with
  | some h => s.deviceWrite h a v
  | none =>
    if s.cfg.romWindows.any (fun w => romCovers w a) then s
    else { s with ram := Memory.write s.ram a.toNat v }

end Sys2Proof.Machine
end

