-- ==== Sys2Proof/Machine/Flags.lean ====
section
/-! DEFINITION. The status register `P` (10 R13, R14), the arithmetic (42) and the shifts (43) as functions on
bytes, each with the flags it computes. -/

namespace Sys2Proof.Machine

/-- The flags of `P` (10 R13). -/
inductive Flag where
  | c | z | i | d | b | u | v | n
  deriving DecidableEq, Repr

/-- The bit of `P` a flag is (10 R13). -/
def Flag.bit : Flag → Nat
  | .c => 0
  | .z => 1
  | .i => 2
  | .d => 3
  | .b => 4
  | .u => 5
  | .v => 6
  | .n => 7

/-- The status byte with only the flag `f` set. -/
def flagMask (f : Flag) : Byte :=
  1#8 <<< f.bit

/-- The flag `f` of a status byte. -/
def getFlag (f : Flag) (p : Byte) : Bool :=
  p.getLsbD f.bit

/-- A status byte with `P.U` forced to 1 (10 R14). -/
def forceU (p : Byte) : Byte :=
  p ||| 0x20

/-- `P.f <- b`: write one bit, then force `P.U` to 1 (00 R7, 10 R14). -/
def putFlag (f : Flag) (b : Bool) (p : Byte) : Byte :=
  forceU (if b then p ||| flagMask f else p &&& ~~~flagMask f)

/-- `setNZ(v)` on a status byte (40 R108). -/
def putNZ (v p : Byte) : Byte :=
  putFlag .n v.msb (putFlag .z (v == 0) p)

/-- The status as `BRK` and `PHP` push it: Break and bit 5 set (45 R201, R212). -/
def statusWithBreak (p : Byte) : Byte :=
  p ||| 0x30

/-- The status as an interrupt service pushes it: Break clear, bit 5 set (60 R236). -/
def statusWithoutBreak (p : Byte) : Byte :=
  (p &&& 0xEF) ||| 0x20

/-- The status as `PLP` and `RTI` take it from a pulled byte: Break cleared, bit 5 set (45 R203, R213). -/
def statusPulled (v : Byte) : Byte :=
  (v &&& 0xEF) ||| 0x20

/-- What an adder answers. -/
structure Sum where
  result : Byte
  carry : Bool
  overflow : Bool
  deriving DecidableEq, Repr

/-- `AddBinary(a, v, c)` (42 R140). -/
def addBinary (a v : Byte) (c : Bool) : Sum :=
  let sum := a.toNat + v.toNat + c.toNat
  let result := BitVec.ofNat 8 sum
  { result := result
    carry := decide (sum > 0xFF)
    overflow := (~~~(a ^^^ v) &&& (a ^^^ result) &&& 0x80) != 0 }

/-- `AddDecimal(a, v, c)` (42 R141): digit-wise, the overflow of the binary sum. -/
def addDecimal (a v : Byte) (c : Bool) : Sum :=
  let lo := a.toNat % 16 + v.toNat % 16 + c.toNat
  let lo := if lo > 9 then lo + 6 else lo
  let half := if lo > 0x0F then 1 else 0
  let hi := a.toNat / 16 + v.toNat / 16 + half
  let carry := decide (hi > 9)
  let hi := if hi > 9 then hi + 6 else hi
  { result := BitVec.ofNat 8 (hi * 16 + lo % 16)
    carry := carry
    overflow := (addBinary a v c).overflow }

/-- The adder `ADC` uses: decimal when `P.D` is 1 (42 R142). -/
def addWithMode (decimal : Bool) (a v : Byte) (c : Bool) : Sum :=
  if decimal then addDecimal a v c else addBinary a v c

/-- The flags of a sum on a status byte: `C`, `V`, then `setNZ` (42 R142). -/
def putSum (r : Sum) (p : Byte) : Byte :=
  putNZ r.result (putFlag .v r.overflow (putFlag .c r.carry p))

/-- `Compare(reg, v)` on a status byte: `C` is `reg >= v` unsigned, then `setNZ` of the difference (42 R144). -/
def putCompare (reg v p : Byte) : Byte :=
  putNZ (reg - v) (putFlag .c (decide (v.toNat ≤ reg.toNat)) p)

/-- `BIT` on a status byte: `Z` from `A & v`, `N` from bit 7 and `V` from bit 6 of `v` (43 R163). -/
def putBit (a v p : Byte) : Byte :=
  putFlag .v (v.getLsbD 6) (putFlag .n (v.getLsbD 7) (putFlag .z ((a &&& v) == 0) p))

/-- What a shift answers: the byte and the bit shifted out (43 R164). -/
structure Shifted where
  result : Byte
  carry : Bool
  deriving DecidableEq, Repr

/-- `ASL` (43 R165). -/
def shiftASL (v : Byte) (_ : Bool) : Shifted :=
  { result := v <<< 1, carry := v.getLsbD 7 }

/-- `LSR` (43 R166). -/
def shiftLSR (v : Byte) (_ : Bool) : Shifted :=
  { result := v >>> 1, carry := v.getLsbD 0 }

/-- `ROL`: the old carry enters bit 0 (43 R167). -/
def shiftROL (v : Byte) (c : Bool) : Shifted :=
  { result := (v <<< 1) ||| (if c then 0x01 else 0), carry := v.getLsbD 7 }

/-- `ROR`: the old carry enters bit 7 (43 R168). -/
def shiftROR (v : Byte) (c : Bool) : Shifted :=
  { result := (v >>> 1) ||| (if c then 0x80 else 0), carry := v.getLsbD 0 }

/-- The flags of a shift on a status byte: `C`, then `setNZ` (43 R164). -/
def putShift (r : Shifted) (p : Byte) : Byte :=
  putNZ r.result (putFlag .c r.carry p)

end Sys2Proof.Machine
end

