-- ==== Sys2Proof/Machine/Ops.lean ====
section
/-! DEFINITION. The named operations every meaning is written with: register writes, 16-bit reads, fetch, the
stack, taking an interrupt or a trap and returning from one, the request inputs, reset and the timer's tick. -/

namespace Sys2Proof.Machine

/-! ### Registers (10_state.md) -/

/-- `A <- v`. -/
def State.setA (s : State) (v : Byte) : State := { s with a := v }

/-- `X <- v`. -/
def State.setX (s : State) (v : Byte) : State := { s with x := v }

/-- `Y <- v`. -/
def State.setY (s : State) (v : Byte) : State := { s with y := v }

/-- `S <- v`. -/
def State.setSP (s : State) (v : Byte) : State := { s with sp := v }

/-- `P <- v`; every rule that writes `P` writes a value with bit 5 set (10 R14). -/
def State.setP (s : State) (v : Byte) : State := { s with p := v }

/-- `PC <- v`. -/
def State.setPC (s : State) (v : Word) : State := { s with pc := v }

/-- `cycleCounter += n` (00 R7). -/
def State.addCycles (s : State) (n : Nat) : State := { s with cycleCounter := s.cycleCounter + n }

/-- `pendingNMI <- b`. -/
def State.setPendingNMI (s : State) (b : Bool) : State := { s with pendingNMI := b }

/-- `pendingIRQ <- b`. -/
def State.setPendingIRQ (s : State) (b : Bool) : State := { s with pendingIRQ := b }

/-- The timer replaced. -/
def State.setTimer (s : State) (t : Timer) : State := { s with timer := t }

/-- The flag `f` of the live `P`. -/
def State.flag (s : State) (f : Flag) : Bool := getFlag f s.p

/-- `P.f <- b`. -/
def State.setFlag (s : State) (f : Flag) (b : Bool) : State := s.setP (putFlag f b s.p)

/-- `setNZ(v)` (40 R108). -/
def State.setNZ (s : State) (v : Byte) : State := s.setP (putNZ v s.p)

/-! ### Reads of two bytes -/

/-- `Read16(addr)`: the low byte first, then the high byte at the next address (20 R50). -/
def State.read16 (s : State) (a : Word) : Word × State :=
  let lo := s.busRead a
  let hi := lo.2.busRead (a + 1)
  (littleEndian lo.1 hi.1, hi.2)

/-- Where the high byte of a zero-page pointer at `p` lies (40 R110, parameter `ZP_PTR_WRAP`). -/
def zpHighAddr (wrap : Bool) (p : Byte) : Word :=
  if wrap then (p + 1).zeroExtend 16 else p.zeroExtend 16 + 1

/-- `ReadZP16(p)` (40 R110). -/
def State.readZP16 (s : State) (p : Byte) : Word × State :=
  let lo := s.busRead (p.zeroExtend 16)
  let hi := lo.2.busRead (zpHighAddr s.cfg.zpPtrWrap p)
  (littleEndian lo.1 hi.1, hi.2)

/-- Where the high byte of a `JMP` indirect pointer lies: the page of the pointer is kept (40 R104). -/
def indirectHighAddr (ptr : Word) : Word :=
  littleEndian (lowByte ptr + 1) (highByte ptr)

/-- The target of a `JMP` indirect through `ptr` (40 R104). -/
def State.readIndirect (s : State) (ptr : Word) : Word × State :=
  let lo := s.busRead ptr
  let hi := lo.2.busRead (indirectHighAddr ptr)
  (littleEndian lo.1 hi.1, hi.2)

/-! ### Fetch -/

/-- `FetchByte()` (40 R92). -/
def State.fetchByte (s : State) : Byte × State :=
  let r := s.busRead s.pc
  (r.1, r.2.setPC (s.pc + 1))

/-- `n` times `FetchByte()`. -/
def State.fetchBytes (s : State) : Nat → List Byte × State
  | 0 => ([], s)
  | n + 1 =>
    let r := s.fetchByte
    let q := State.fetchBytes r.2 n
    (r.1 :: q.1, q.2)

/-- Fetch the bytes of the next instruction and decode it: the opcode byte, then as many operand bytes as its
mode takes, low byte first (40 R91; 30 R70, R73). `PC` is then past the instruction. -/
def State.fetchInstr (s : State) : Instr × State :=
  let op := s.fetchByte
  match (descriptor op.1).mode.operandBytes with
  | 0 => (decodeOp op.1 0 0, op.2)
  | 1 =>
    let b1 := op.2.fetchByte
    (decodeOp op.1 b1.1 0, b1.2)
  | _ =>
    let b1 := op.2.fetchByte
    let b2 := b1.2.fetchByte
    (decodeOp op.1 b1.1 b2.1, b2.2)

/-! ### The stack (40 R109) -/

/-- The stack address of a stack pointer, `0x0100 | S` (10 R11). -/
def stackAddr (sp : Byte) : Word :=
  littleEndian sp 0x01

/-- `Push(v)`: store at `S`, then decrement. -/
def State.push (s : State) (v : Byte) : State :=
  (s.busWrite (stackAddr s.sp) v).setSP (s.sp - 1)

/-- `Pull()`: increment, then read at `S`. -/
def State.pull (s : State) : Byte × State :=
  (s.setSP (s.sp + 1)).busRead (stackAddr (s.sp + 1))

/-- Push a 16-bit value, the high byte first (44 R181, 60 R236). -/
def State.pushWord (s : State) (w : Word) : State :=
  (s.push (highByte w)).push (lowByte w)

/-- Pull a 16-bit value, the low byte first (44 R182, 45 R213). -/
def State.pullWord (s : State) : Word × State :=
  let lo := s.pull
  let hi := lo.2.pull
  (littleEndian lo.1 hi.1, hi.2)

/-! ### Taking an interrupt or a trap, and returning (60 R236, R238) -/

/-- The NMI vector (20 R47). -/
def nmiVector : Word := 0xFFFA

/-- The reset vector (20 R47). -/
def resetVector : Word := 0xFFFC

/-- The vector of IRQ and `BRK` (20 R47). -/
def irqVector : Word := 0xFFFE

/-- The shared entry (60 R236, 45 R212): push `PC` high byte first, push `status`, set `P.I`, jump through
`vector`. -/
def State.enterHandler (s : State) (vector : Word) (status : Byte) : State :=
  let s := (s.pushWord s.pc).push status
  let s := s.setFlag .i true
  let target := s.read16 vector
  target.2.setPC target.1

/-- `ServiceInterrupt(vector)`: Break clear in the pushed status, 7 cycles (60 R236). -/
def State.serviceInterrupt (s : State) (vector : Word) : State :=
  (s.enterHandler vector (statusWithoutBreak s.p)).addCycles 7

/-- The return (45 R213): pull the status, then `PC`. -/
def State.returnFromHandler (s : State) : State :=
  let v := s.pull
  let s := v.2.setP (statusPulled v.1)
  let target := s.pullWord
  target.2.setPC target.1

/-! ### The request inputs (60 R232, R233), reset (70 R270) and the tick (60 R248) -/

/-- `nmi()`: always accepted. -/
def State.nmi (s : State) : State := s.setPendingNMI true

/-- `irq()`: accepted only if `P.I` is 0 at the call. -/
def State.irq (s : State) : State :=
  if s.flag .i then s else s.setPendingIRQ true

/-- `reset()` (70 R270): the only entry into `Running`. -/
def State.doReset (s : State) : State :=
  let vector := s.read16 resetVector
  { vector.2 with
    pc := vector.1, sp := 0xFD, p := 0x24, cycleCounter := 0
    pendingNMI := false, pendingIRQ := false, running := true }

/-- The reload value: the latch, or 0x10000 if it is 0 (60 R248). -/
def Timer.reload (t : Timer) : Int :=
  if t.latch = 0 then 0x10000 else t.latch.toNat

/-- Whether `tick(n)` brings an armed timer to zero or below (60 R248). -/
def Timer.expires (t : Timer) (n : Nat) : Bool :=
  t.enabled && decide (t.counter - n ≤ 0)

/-- `TimerDevice.tick(n)` on the timer (60 R248): count down if armed; the reload replaces the counter. -/
def Timer.tick (t : Timer) (n : Nat) : Timer :=
  if t.expires n then { t with counter := t.reload }
  else if t.enabled then { t with counter := t.counter - n }
  else t

/-- `tick(n)` on the machine: one `irq()` when the timer expires (60 R248). -/
def State.tick (s : State) (n : Nat) : State :=
  let s' := s.setTimer (s.timer.tick n)
  if s.timer.expires n then s'.irq else s'

end Sys2Proof.Machine
end

