-- ==== Sys2Proof/Machine/Operands.lean ====
section
/-! DEFINITION. The addressing-mode resolvers (40 R93 to R105), operand access (40 R107) and the frame of
`ExecuteInstruction` around an operation (40 R91). -/

namespace Sys2Proof.Machine

/-- Where a resolved operand lies: in `A`, in the instruction itself, or at an effective address (40 R107). -/
inductive Location where
  | acc
  | imm (v : Byte)
  | mem (addr : Word)
  deriving DecidableEq, Repr

/-- A resolver's result: the location and `r.crossed` (40 R91). -/
structure Resolved where
  loc : Location
  crossed : Bool
  deriving DecidableEq, Repr

/-- The index added to a base, modulo 0x10000, and whether the page changed (40 R100, R101, R103). -/
def indexed (base : Word) (index : Byte) : Resolved :=
  let ea := base + index.zeroExtend 16
  { loc := .mem ea, crossed := highByte ea != highByte base }

/-- `Resolve(mode)`: the instruction bytes are already in the operand, and `PC` is past them (40 R91). -/
def State.resolve (s : State) : Operand → Resolved × State
  | .acc => (⟨.acc, false⟩, s)
  | .imm v => (⟨.imm v, false⟩, s)
  | .zp a => (⟨.mem (a.zeroExtend 16), false⟩, s)
  | .zpX a => (⟨.mem ((a + s.x).zeroExtend 16), false⟩, s)
  | .zpY a => (⟨.mem ((a + s.y).zeroExtend 16), false⟩, s)
  | .abs a => (⟨.mem a, false⟩, s)
  | .absX a => (indexed a s.x, s)
  | .absY a => (indexed a s.y, s)
  | .ind a =>
    let r := s.readIndirect a
    (⟨.mem r.1, false⟩, r.2)
  | .indX a =>
    let r := s.readZP16 (a + s.x)
    (⟨.mem r.1, false⟩, r.2)
  | .indY a =>
    let r := s.readZP16 a
    (indexed r.1 s.y, r.2)
  | .rel d => (⟨.mem (s.pc + d.signExtend 16), false⟩, s)

/-- `LoadOperand(r)` (40 R107). -/
def State.loadOperand (s : State) : Location → Byte × State
  | .acc => (s.a, s)
  | .imm v => (v, s)
  | .mem a => s.busRead a

/-- `StoreOperand(r, v)` (40 R107); no instruction stores in immediate mode. -/
def State.storeOperand (s : State) (v : Byte) : Location → State
  | .acc => s.setA v
  | .imm _ => s
  | .mem a => s.busWrite a v

/-- `PC <- r.addr`, for `JMP`, `JSR` and the branches; the other locations have no address. -/
def State.jumpTo (s : State) : Location → State
  | .mem a => s.setPC a
  | .acc | .imm _ => s

/-- The cycle part of the descriptor of an opcode: the parameter `CYCLES` (00 R5, 92 D7). -/
def State.cycleEntry (s : State) (op : Byte) : CycleEntry :=
  match s.cfg.cycles with
  | none => ⟨(descriptor op).base, (descriptor op).pageCross⟩
  | some t => (t[op.toNat]?).getD ⟨2, false⟩

/-- The cycles `ExecuteInstruction` adds for an opcode itself: `baseCycles`, and one more if the descriptor is
flagged and the resolver crossed a page (40 R91, R106). -/
def State.cyclesOf (s : State) (op : Byte) (crossed : Bool) : Nat :=
  (s.cycleEntry op).base + (if (s.cycleEntry op).pageCross && crossed then 1 else 0)

/-- `ExecuteInstruction` after the fetch (40 R91) around a resolver and an operation `body`, which answers
`r.crossed` and the state: a term that no opcode encodes is refused (log 22). -/
def execute (i : Instr) (s : State) (body : State → Bool × State) : Host.Outcome State Fault Refusal :=
  match opcodeOf i with
  | some op => .next ((body s).2.addCycles (s.cyclesOf op (body s).1))
  | none => .refused (.noSuchForm i)

/-- An instruction in implied mode (40 R93). -/
def executeImplied (i : Instr) (s : State) (operate : State → State) : Host.Outcome State Fault Refusal :=
  execute i s fun s => (false, operate s)

/-- An instruction with an operand: resolve it, then operate on the location (40 R91). -/
def executeOperand (i : Instr) (o : Operand) (s : State) (operate : Location → State → State) :
    Host.Outcome State Fault Refusal :=
  execute i s fun s => ((s.resolve o).1.crossed, operate (s.resolve o).1.loc (s.resolve o).2)

/-- A read-type instruction: resolve, load the operand once, operate on the value (40 R107). -/
def executeRead (i : Instr) (o : Operand) (s : State) (operate : Byte → State → State) :
    Host.Outcome State Fault Refusal :=
  executeOperand i o s fun loc s => operate (s.loadOperand loc).1 (s.loadOperand loc).2

/-- A read-modify-write instruction: load once, then store once at the same location (40 R107). -/
def executeModify (i : Instr) (o : Operand) (s : State) (operate : Byte → State → Byte × State) :
    Host.Outcome State Fault Refusal :=
  executeOperand i o s fun loc s =>
    let v := s.loadOperand loc
    let r := operate v.1 v.2
    r.2.storeOperand r.1 loc

end Sys2Proof.Machine
end

