-- ==== Sys2Proof/Machine/Arithmetic.lean ====
section
/-! DEFINITION. Addition, subtraction, compares, increments and decrements (42_arithmetic.md). -/

namespace Sys2Proof.Machine

/-- `A` and the flags `C`, `V`, `N`, `Z` from a sum (42 R142). -/
def State.accumulate (s : State) (r : Sum) : State :=
  (s.setA r.result).setP (putSum r s.p)

/-- `ADC` (42 R142): the sum in the mode `P.D` selects; the old `A` and `P.C` are read first. -/
def execAdc (o : Operand) (s : State) : Host.Outcome State Fault Refusal :=
  executeRead (.adc o) o s fun v s => s.accumulate (addWithMode (s.flag .d) s.a v (s.flag .c))

/-- `SBC` (42 R143): the add of the complemented operand, in both modes. -/
def execSbc (o : Operand) (s : State) : Host.Outcome State Fault Refusal :=
  executeRead (.sbc o) o s fun v s => s.accumulate (addWithMode (s.flag .d) s.a (~~~v) (s.flag .c))

/-- `CMP` (42 R144, R145). -/
def execCmp (o : Operand) (s : State) : Host.Outcome State Fault Refusal :=
  executeRead (.cmp o) o s fun v s => s.setP (putCompare s.a v s.p)

/-- `CPX` (42 R144, R146). -/
def execCpx (o : Operand) (s : State) : Host.Outcome State Fault Refusal :=
  executeRead (.cpx o) o s fun v s => s.setP (putCompare s.x v s.p)

/-- `CPY` (42 R144, R147). -/
def execCpy (o : Operand) (s : State) : Host.Outcome State Fault Refusal :=
  executeRead (.cpy o) o s fun v s => s.setP (putCompare s.y v s.p)

/-- `INC` (42 R148). -/
def execInc (o : Operand) (s : State) : Host.Outcome State Fault Refusal :=
  executeModify (.inc o) o s fun v s => (v + 1, s.setNZ (v + 1))

/-- `DEC` (42 R149). -/
def execDec (o : Operand) (s : State) : Host.Outcome State Fault Refusal :=
  executeModify (.dec o) o s fun v s => (v - 1, s.setNZ (v - 1))

/-- `INX` (42 R150). -/
def execInx (s : State) : Host.Outcome State Fault Refusal :=
  executeImplied .inx s fun s => (s.setX (s.x + 1)).setNZ (s.x + 1)

/-- `INY` (42 R151). -/
def execIny (s : State) : Host.Outcome State Fault Refusal :=
  executeImplied .iny s fun s => (s.setY (s.y + 1)).setNZ (s.y + 1)

/-- `DEX` (42 R152). -/
def execDex (s : State) : Host.Outcome State Fault Refusal :=
  executeImplied .dex s fun s => (s.setX (s.x - 1)).setNZ (s.x - 1)

/-- `DEY` (42 R153). -/
def execDey (s : State) : Host.Outcome State Fault Refusal :=
  executeImplied .dey s fun s => (s.setY (s.y - 1)).setNZ (s.y - 1)

end Sys2Proof.Machine
end

