-- ==== Sys2Proof/Machine/ControlFlow.lean ====
section
/-! DEFINITION. Jumps, subroutines and branches (44_control_flow.md). -/

namespace Sys2Proof.Machine

/-- The cycles a taken branch adds: `BRANCH_EXTRA`, more when the target is on another page than the
instruction that follows the branch (44 R183). -/
def State.branchCycles (s : State) (target : Word) : Nat :=
  s.cfg.branchTaken + (if highByte target != highByte s.pc then s.cfg.branchPage else 0)

/-- The common frame of the branches (44 R183): taken, `PC` is the target; else `PC` stays past the branch. -/
def State.branchIf (s : State) (taken : Bool) (loc : Location) : State :=
  if taken then
    match loc with
    | .mem target => (s.addCycles (s.branchCycles target)).setPC target
    | .acc | .imm _ => s
  else s

/-- `JMP` (44 R180). -/
def execJmp (o : Operand) (s : State) : Host.Outcome State Fault Refusal :=
  executeOperand (.jmp o) o s fun loc s => s.jumpTo loc

/-- `JSR` (44 R181): pushes the address of its own last byte. -/
def execJsr (o : Operand) (s : State) : Host.Outcome State Fault Refusal :=
  executeOperand (.jsr o) o s fun loc s => (s.pushWord (s.pc - 1)).jumpTo loc

/-- `RTS` (44 R182): returns to the pulled address plus one. -/
def execRts (s : State) : Host.Outcome State Fault Refusal :=
  executeImplied .rts s fun s => s.pullWord.2.setPC (s.pullWord.1 + 1)

/-- `BPL` (44 R183, R184). -/
def execBpl (o : Operand) (s : State) : Host.Outcome State Fault Refusal :=
  executeOperand (.bpl o) o s fun loc s => s.branchIf (!s.flag .n) loc

/-- `BMI` (44 R183, R185). -/
def execBmi (o : Operand) (s : State) : Host.Outcome State Fault Refusal :=
  executeOperand (.bmi o) o s fun loc s => s.branchIf (s.flag .n) loc

/-- `BVC` (44 R183, R186). -/
def execBvc (o : Operand) (s : State) : Host.Outcome State Fault Refusal :=
  executeOperand (.bvc o) o s fun loc s => s.branchIf (!s.flag .v) loc

/-- `BVS` (44 R183, R187). -/
def execBvs (o : Operand) (s : State) : Host.Outcome State Fault Refusal :=
  executeOperand (.bvs o) o s fun loc s => s.branchIf (s.flag .v) loc

/-- `BCC` (44 R183, R188). -/
def execBcc (o : Operand) (s : State) : Host.Outcome State Fault Refusal :=
  executeOperand (.bcc o) o s fun loc s => s.branchIf (!s.flag .c) loc

/-- `BCS` (44 R183, R189). -/
def execBcs (o : Operand) (s : State) : Host.Outcome State Fault Refusal :=
  executeOperand (.bcs o) o s fun loc s => s.branchIf (s.flag .c) loc

/-- `BNE` (44 R183, R190). -/
def execBne (o : Operand) (s : State) : Host.Outcome State Fault Refusal :=
  executeOperand (.bne o) o s fun loc s => s.branchIf (!s.flag .z) loc

/-- `BEQ` (44 R183, R191). -/
def execBeq (o : Operand) (s : State) : Host.Outcome State Fault Refusal :=
  executeOperand (.beq o) o s fun loc s => s.branchIf (s.flag .z) loc

end Sys2Proof.Machine
end

