-- ==== Sys2Proof/Machine/LoadStore.lean ====
section
/-! DEFINITION. Loads, stores and register transfers (41_load_store_transfer.md). -/

namespace Sys2Proof.Machine

/-- `LDA` (41 R120). -/
def execLda (o : Operand) (s : State) : Host.Outcome State Fault Refusal :=
  executeRead (.lda o) o s fun v s => (s.setA v).setNZ v

/-- `LDX` (41 R121). -/
def execLdx (o : Operand) (s : State) : Host.Outcome State Fault Refusal :=
  executeRead (.ldx o) o s fun v s => (s.setX v).setNZ v

/-- `LDY` (41 R122). -/
def execLdy (o : Operand) (s : State) : Host.Outcome State Fault Refusal :=
  executeRead (.ldy o) o s fun v s => (s.setY v).setNZ v

/-- `STA` (41 R123): the target is not read. -/
def execSta (o : Operand) (s : State) : Host.Outcome State Fault Refusal :=
  executeOperand (.sta o) o s fun loc s => s.storeOperand s.a loc

/-- `STX` (41 R124). -/
def execStx (o : Operand) (s : State) : Host.Outcome State Fault Refusal :=
  executeOperand (.stx o) o s fun loc s => s.storeOperand s.x loc

/-- `STY` (41 R125). -/
def execSty (o : Operand) (s : State) : Host.Outcome State Fault Refusal :=
  executeOperand (.sty o) o s fun loc s => s.storeOperand s.y loc

/-- `TAX` (41 R126). -/
def execTax (s : State) : Host.Outcome State Fault Refusal :=
  executeImplied .tax s fun s => (s.setX s.a).setNZ s.a

/-- `TAY` (41 R127). -/
def execTay (s : State) : Host.Outcome State Fault Refusal :=
  executeImplied .tay s fun s => (s.setY s.a).setNZ s.a

/-- `TXA` (41 R128). -/
def execTxa (s : State) : Host.Outcome State Fault Refusal :=
  executeImplied .txa s fun s => (s.setA s.x).setNZ s.x

/-- `TYA` (41 R129). -/
def execTya (s : State) : Host.Outcome State Fault Refusal :=
  executeImplied .tya s fun s => (s.setA s.y).setNZ s.y

/-- `TSX` (41 R130). -/
def execTsx (s : State) : Host.Outcome State Fault Refusal :=
  executeImplied .tsx s fun s => (s.setX s.sp).setNZ s.sp

/-- `TXS` (41 R131): writes no flag. -/
def execTxs (s : State) : Host.Outcome State Fault Refusal :=
  executeImplied .txs s fun s => s.setSP s.x

end Sys2Proof.Machine
end

