-- ==== Sys2Proof/Machine/Logic.lean ====
section
/-! DEFINITION. Logical operations, the bit test, shifts and rotates (43_logic_shift.md). -/

namespace Sys2Proof.Machine

/-- The byte a shift stores back and the state with its flags (43 R164). -/
def State.shiftWith (s : State) (r : Shifted) : Byte × State :=
  (r.result, s.setP (putShift r s.p))

/-- `AND` (43 R160). -/
def execAnd (o : Operand) (s : State) : Host.Outcome State Fault Refusal :=
  executeRead (.and o) o s fun v s => (s.setA (s.a &&& v)).setNZ (s.a &&& v)

/-- `ORA` (43 R161). -/
def execOra (o : Operand) (s : State) : Host.Outcome State Fault Refusal :=
  executeRead (.ora o) o s fun v s => (s.setA (s.a ||| v)).setNZ (s.a ||| v)

/-- `EOR` (43 R162). -/
def execEor (o : Operand) (s : State) : Host.Outcome State Fault Refusal :=
  executeRead (.eor o) o s fun v s => (s.setA (s.a ^^^ v)).setNZ (s.a ^^^ v)

/-- `BIT` (43 R163): writes no register. -/
def execBit (o : Operand) (s : State) : Host.Outcome State Fault Refusal :=
  executeRead (.bit o) o s fun v s => s.setP (putBit s.a v s.p)

/-- `ASL` (43 R164, R165). -/
def execAsl (o : Operand) (s : State) : Host.Outcome State Fault Refusal :=
  executeModify (.asl o) o s fun v s => s.shiftWith (shiftASL v (s.flag .c))

/-- `LSR` (43 R164, R166). -/
def execLsr (o : Operand) (s : State) : Host.Outcome State Fault Refusal :=
  executeModify (.lsr o) o s fun v s => s.shiftWith (shiftLSR v (s.flag .c))

/-- `ROL` (43 R164, R167). -/
def execRol (o : Operand) (s : State) : Host.Outcome State Fault Refusal :=
  executeModify (.rol o) o s fun v s => s.shiftWith (shiftROL v (s.flag .c))

/-- `ROR` (43 R164, R168). -/
def execRor (o : Operand) (s : State) : Host.Outcome State Fault Refusal :=
  executeModify (.ror o) o s fun v s => s.shiftWith (shiftROR v (s.flag .c))

end Sys2Proof.Machine
end

