-- ==== Sys2Proof/Machine/StackFlags.lean ====
section
/-! DEFINITION. Stack, flag and system instructions and the fallback no-op (45_stack_flags_system.md). -/

namespace Sys2Proof.Machine

/-- `PHA` (45 R200). -/
def execPha (s : State) : Host.Outcome State Fault Refusal :=
  executeImplied .pha s fun s => s.push s.a

/-- `PHP` (45 R201): Break and bit 5 are set in the pushed byte. -/
def execPhp (s : State) : Host.Outcome State Fault Refusal :=
  executeImplied .php s fun s => s.push (statusWithBreak s.p)

/-- `PLA` (45 R202). -/
def execPla (s : State) : Host.Outcome State Fault Refusal :=
  executeImplied .pla s fun s => (s.pull.2.setA s.pull.1).setNZ s.pull.1

/-- `PLP` (45 R203). -/
def execPlp (s : State) : Host.Outcome State Fault Refusal :=
  executeImplied .plp s fun s => s.pull.2.setP (statusPulled s.pull.1)

/-- `CLC` (45 R204). -/
def execClc (s : State) : Host.Outcome State Fault Refusal :=
  executeImplied .clc s fun s => s.setFlag .c false

/-- `SEC` (45 R205). -/
def execSec (s : State) : Host.Outcome State Fault Refusal :=
  executeImplied .sec s fun s => s.setFlag .c true

/-- `CLI` (45 R206). -/
def execCli (s : State) : Host.Outcome State Fault Refusal :=
  executeImplied .cli s fun s => s.setFlag .i false

/-- `SEI` (45 R207). -/
def execSei (s : State) : Host.Outcome State Fault Refusal :=
  executeImplied .sei s fun s => s.setFlag .i true

/-- `CLD` (45 R208). -/
def execCld (s : State) : Host.Outcome State Fault Refusal :=
  executeImplied .cld s fun s => s.setFlag .d false

/-- `SED` (45 R209). -/
def execSed (s : State) : Host.Outcome State Fault Refusal :=
  executeImplied .sed s fun s => s.setFlag .d true

/-- `CLV` (45 R210). -/
def execClv (s : State) : Host.Outcome State Fault Refusal :=
  executeImplied .clv s fun s => s.setFlag .v false

/-- `NOP` (45 R211). -/
def execNop (s : State) : Host.Outcome State Fault Refusal :=
  executeImplied .nop s fun s => s

/-- `BRK` (45 R212): the padding byte is fetched, then the shared entry with Break set in the pushed status. -/
def execBrk (s : State) : Host.Outcome State Fault Refusal :=
  executeImplied .brk s fun s => s.fetchByte.2.enterHandler irqVector (statusWithBreak s.p)

/-- `RTI` (45 R213). -/
def execRti (s : State) : Host.Outcome State Fault Refusal :=
  executeImplied .rti s fun s => s.returnFromHandler

/-- `UNOFFICIAL_NOP` (45 R214): no effect but the advance of `PC` and 2 cycles. -/
def execUnofficialNop (opcode : Byte) (s : State) : Host.Outcome State Fault Refusal :=
  executeImplied (.unofficialNop opcode) s fun s => s

end Sys2Proof.Machine
end

