-- ==== Sys2Proof/Machine/Drive.lean ====
section
/-! DEFINITION. `step()` of the CPU (40 R90), the system step (60 R250) and the environment's calls (60 R231). -/

namespace Sys2Proof.Machine

/-- `ExecuteInstruction()` (40 R91): fetch and decode, then the instruction's meaning. -/
def State.executeNext (s : State) : Host.Outcome State Fault Refusal :=
  exec s.fetchInstr.1 s.fetchInstr.2

/-- Whether a latched IRQ is serviced by this step: the mask is tested again only under the alternative reading
of 90 C1. -/
def State.takesIRQ (s : State) : Bool :=
  s.pendingIRQ && !(s.cfg.irqRecheckMask && s.flag .i)

/-- `CPUCore.step()` (40 R90): NMI first, then IRQ, else one instruction; no meaning before the first reset
(92 D24). -/
def State.cpuStep (s : State) : Host.Outcome State Fault Refusal :=
  if !s.running then .refused .beforeReset
  else if s.pendingNMI then .next ((s.setPendingNMI false).serviceInterrupt nmiVector)
  else if s.takesIRQ then .next ((s.setPendingIRQ false).serviceInterrupt irqVector)
  else s.executeNext

/-- The tick that follows a step begun at the count `before`: `tick(cycleCounter - before)` (60 R250). -/
def tickAfter (before : Nat) : Host.Outcome State Fault Refusal → Host.Outcome State Fault Refusal
  | .next s => .next (s.tick (s.cycleCounter - before))
  | .fault f => .fault f
  | .refused r => .refused r

/-- `SystemStep()` (60 R250). -/
def State.systemStep (s : State) : Host.Outcome State Fault Refusal :=
  tickAfter s.cycleCounter s.cpuStep

/-- One call of the environment (60 R250, R251). -/
def State.serve (s : State) : Input → Host.Outcome State Fault Refusal
  | .system => s.systemStep
  | .step => s.cpuStep
  | .tick n => .next (s.tick n)
  | .nmi => .next s.nmi
  | .irq => .next s.irq
  | .reset => .next s.doReset

/-- One move of the composed machine: the next call listed, or a system step when none is (log 13). -/
def State.advance (s : State) : Host.Outcome State Fault Refusal :=
  match s.inputs with
  | [] => s.systemStep
  | call :: later => State.serve { s with inputs := later } call

/-- The bytes `bs` written to the RAM cells from `a` on, past the bus. -/
def State.placeBytes (s : State) (a : Word) : List Byte → State
  | [] => s
  | b :: bs => State.placeBytes { s with ram := Memory.write s.ram a.toNat b } (a + 1) bs

/-- The configuration in which a fetch from the three addresses at `a` reads RAM: without the ROM windows and
the answering hooks of external devices that cover one of them. -/
def clearFetchPath (a : Word) (c : Config) : Config :=
  { c with
    romWindows := c.romWindows.filter
      (fun w => !(romCovers w a || romCovers w (a + 1) || romCovers w (a + 2)))
    hooks := c.hooks.filter
      (fun h => !(decide (h.device ≠ .timer) && h.hasRead &&
        (hookCovers h a || hookCovers h (a + 1) || hookCovers h (a + 2)))) }

/-- The state made ready to execute the instruction whose bytes are `bs` in its very next step. -/
def State.readyFor (s : State) (bs : List Byte) : State :=
  State.placeBytes
    { s with
      pendingNMI := false, pendingIRQ := false, running := true
      inputs := match s.inputs with
        | [] => []
        | later => .system :: later
      cfg := clearFetchPath s.pc (if configWf s.cfg then s.cfg else Config.default) }
    s.pc bs

end Sys2Proof.Machine
end

