-- ==== Sys2Proof/Machine/Step.lean ====
section
/-! DEFINITION. One step of the machine, and the instruction placed where the next step fetches. -/

namespace Sys2Proof.Machine

/-- One step: a move of the composed machine (`State.advance`), under a configuration that is well formed; any
other configuration is refused (20 R44, R45; 93 U2, U3). -/
def step (s : State) : Host.Outcome State Fault Refusal :=
  if configWf s.cfg then s.advance else .refused .illFormedConfiguration

/-- `s` with the instruction whose bits are `w` (numbered as the opcode table numbers them) stored at `PC`, and
nothing pending before it, so that the next step fetches and executes it (log 23). -/
def State.withFetchWord (s : State) (nbits w : Nat) : State :=
  s.readyFor (tableBytes nbits w)

end Sys2Proof.Machine
end

