-- ==== Sys2Proof/Safety.lean ====
section
/-! DEFINITION. The terms the claims use: the invariant of a run, what an instruction leaves unchanged, and the
conditions under which memory is plain RAM. -/

namespace Sys2Proof.Machine

/-! ### The invariant of the machine between steps -/

/-- What holds after reset and after every step: a well-formed configuration (20 R44, R45), RAM in canonical form
(10 R20), a legal status `P & 0x30 = 0x20` (10 R14), the CPU running (40 R90) and the timer's counter in
`0..0x10000` (10 R22). -/
structure Inv (s : State) : Prop where
  config : configWf s.cfg = true
  memory : Memory.wf s.ram = true
  status : s.p &&& 0x30 = 0x20
  running : s.running = true
  counter : 0 ≤ s.timer.counter ∧ s.timer.counter ≤ 0x10000

/-- A state whose next step executes an instruction: no request pending and no call of the environment listed. -/
structure Ready (s : State) : Prop where
  config : configWf s.cfg = true
  running : s.running = true
  inputs : s.inputs = []
  nmi : s.pendingNMI = false
  irq : s.pendingIRQ = false

/-! ### Plain memory -/

/-- An address that no hook and no ROM window covers. -/
def plainAddr (c : Config) (a : Word) : Bool :=
  c.hooks.all (fun h => !hookCovers h a) && c.romWindows.all (fun w => !romCovers w a)

/-- Every bus access of a list of writes, in order. -/
def State.busWrites (s : State) (ws : List (Word × Byte)) : State :=
  ws.foldl (fun s w => s.busWrite w.1 w.2) s

/-! ### Results and frames of instructions -/

/-- The registers `A`, `X`, `Y`, `S`. -/
structure Regs (t : State) (a x y sp : Byte) : Prop where
  a : t.a = a
  x : t.x = x
  y : t.y = y
  sp : t.sp = sp

/-- `N` and `Z` are those of `v` (40 R108), in numbers. -/
structure NZOf (v : Byte) (t : State) : Prop where
  n : t.flag .n = decide (128 ≤ v.toNat)
  z : t.flag .z = decide (v.toNat = 0)

/-- Every flag outside `written` is kept, and bit 5 is 1 (10 R14). -/
structure FlagsKept (written : List Flag) (s t : State) : Prop where
  kept : ∀ f, f ∉ written → f ≠ .u → t.flag f = s.flag f
  unused : t.flag .u = true

/-- The machine outside the CPU's registers, its cycle counter, memory and the devices is unchanged. -/
structure ControlKept (s t : State) : Prop where
  nmi : t.pendingNMI = s.pendingNMI
  irq : t.pendingIRQ = s.pendingIRQ
  running : t.running = s.running
  config : t.cfg = s.cfg
  inputs : t.inputs = s.inputs

/-- No byte of RAM and nothing of the timer is changed. -/
structure MemoryKept (s t : State) : Prop where
  cells : ∀ a, t.cell a = s.cell a
  timer : t.timer = s.timer

/-- The stores `ws`, made in order from the state `u`, are all that changes memory from `s` to `t`: RAM, the
timer and the devices are what the bus writes leave, and every cell at another address is kept. -/
structure Stored (ws : List (Word × Byte)) (u s t : State) : Prop where
  ram : t.ram = (u.busWrites ws).ram
  timer : t.timer = (u.busWrites ws).timer
  elsewhere : ∀ a, (∀ w ∈ ws, a ≠ w.1) → t.cell a = s.cell a

/-- The cycles of an instruction itself, branches' extra apart (40 R91); 0 for a term that no opcode encodes. -/
def State.cost (s : State) (i : Instr) (crossed : Bool) : Nat :=
  match opcodeOf i with
  | some op => s.cyclesOf op crossed
  | none => 0

/-- The base cycles of the read-type instructions by mode (30 R74); 0 for a mode that none has. -/
def readCycles : Mode → Nat
  | .imm => 2
  | .zp => 3
  | .zpX | .zpY | .abs | .absX | .absY => 4
  | .indY => 5
  | .indX => 6
  | .imp | .acc | .ind | .rel => 0

/-- The base cycles of the stores by mode (30 R74). -/
def storeCycles : Mode → Nat
  | .zp => 3
  | .zpX | .zpY | .abs => 4
  | .absX | .absY => 5
  | .indX | .indY => 6
  | .imp | .acc | .imm | .ind | .rel => 0

/-- The base cycles of the read-modify-writes by mode (30 R74). -/
def modifyCycles : Mode → Nat
  | .acc => 2
  | .zp => 5
  | .zpX | .abs => 6
  | .absX => 7
  | .imp | .imm | .zpY | .absY | .ind | .indX | .indY | .rel => 0

/-- The column `baseCycles` of 30 R74, and the 2 of 30 R75, by mnemonic and mode: a second reading of the table, beside
the rows of Decode.lean. The counts are PRESUMED by the spec (log 7). -/
def baseCycles (m : Mnemonic) (d : Mode) : Nat :=
  match m with
  | .lda | .ldx | .ldy | .adc | .sbc | .and | .ora | .eor | .cmp | .cpx | .cpy | .bit => readCycles d
  | .sta | .stx | .sty => storeCycles d
  | .inc | .dec | .asl | .lsr | .rol | .ror => modifyCycles d
  | .jmp => if d = .ind then 5 else 3
  | .jsr | .rts | .rti => 6
  | .brk => 7
  | .pha | .php => 3
  | .pla | .plp => 4
  | .bcc | .bcs | .beq | .bmi | .bne | .bpl | .bvc | .bvs => 2
  | .clc | .cld | .cli | .clv | .sec | .sed | .sei | .nop | .unofficialNop => 2
  | .tax | .tay | .tsx | .txa | .txs | .tya | .inx | .iny | .dex | .dey => 2

/-- The value an instruction's operand loads. -/
def State.operandValue (s : State) (o : Operand) : Byte :=
  ((s.resolve o).2.loadOperand (s.resolve o).1.loc).1

/-- The state after the operand is resolved and loaded: the reads can advance the devices only. -/
def State.afterLoad (s : State) (o : Operand) : State :=
  ((s.resolve o).2.loadOperand (s.resolve o).1.loc).2

/-- What an instruction in implied mode that makes no bus access leaves, its registers and flags apart. -/
structure ImpliedFrame (i : Instr) (s t : State) : Prop where
  pc : t.pc = s.pc
  cycles : t.cycleCounter = s.cycleCounter + s.cost i false
  memory : MemoryKept s t
  io : t.io = s.io
  control : ControlKept s t

/-- What a read-type instruction leaves, its registers and flags apart: `PC` past the instruction, its cycles
added, memory kept, the devices as the operand's reads leave them. -/
structure ReadFrame (i : Instr) (o : Operand) (s t : State) : Prop where
  pc : t.pc = s.pc
  cycles : t.cycleCounter = s.cycleCounter + s.cost i (s.resolve o).1.crossed
  memory : MemoryKept s t
  io : t.io = (s.afterLoad o).io
  control : ControlKept s t

/-- What a store of `v` to the address `ea` leaves, when the operand is resolved and not loaded. -/
structure StoreFrame (i : Instr) (o : Operand) (ea : Word) (v : Byte) (s t : State) : Prop where
  regs : Regs t s.a s.x s.y s.sp
  status : t.p = s.p
  pc : t.pc = s.pc
  cycles : t.cycleCounter = s.cycleCounter + s.cost i (s.resolve o).1.crossed
  stored : Stored [(ea, v)] (s.resolve o).2 s t
  io : t.io = ((s.resolve o).2.busWrites [(ea, v)]).io
  control : ControlKept s t

/-- What a read-modify-write of memory at `ea` that stores `v` leaves, its flags apart: one read, one write of the
same address (20 R52). -/
structure ModifyFrame (i : Instr) (o : Operand) (ea : Word) (v : Byte) (s t : State) : Prop where
  regs : Regs t s.a s.x s.y s.sp
  pc : t.pc = s.pc
  cycles : t.cycleCounter = s.cycleCounter + s.cost i (s.resolve o).1.crossed
  stored : Stored [(ea, v)] (s.afterLoad o) s t
  io : t.io = ((s.afterLoad o).busWrites [(ea, v)]).io
  control : ControlKept s t

/-- The stores of an interrupt frame from the stack pointer `sp`: `PC` high, `PC` low, status (60 R236). -/
def frameStores (sp : Byte) (pc : Word) (status : Byte) : List (Word × Byte) :=
  [(stackAddr sp, highByte pc), (stackAddr (sp - 1), lowByte pc), (stackAddr (sp - 2), status)]

/-- The entry through `vector` taken at the state `u` (60 R236): the three stores, `I` set and the other flags
kept, `S` down by 3, `PC` from the vector read after the stores, nothing else. -/
structure Entered (vector : Word) (status : Byte) (u t : State) : Prop where
  regs : Regs t u.a u.x u.y (u.sp - 3)
  interrupt : t.flag .i = true
  flags : FlagsKept [.i] u t
  stored : Stored (frameStores u.sp u.pc status) u u t
  pc : t.pc = ((u.busWrites (frameStores u.sp u.pc status)).read16 vector).1
  io : t.io = ((u.busWrites (frameStores u.sp u.pc status)).read16 vector).2.io

/-! ### Shapes shared by several instructions -/

/-- `n` times the same instruction. -/
def execTimes (i : Instr) : Nat → State → Host.Outcome State Fault Refusal
  | 0, s => .next s
  | n + 1, s =>
    match exec i s with
    | .next t => execTimes i n t
    | .fault f => .fault f
    | .refused r => .refused r

/-- The shift or rotate `shift` at the state `s` (43 R164): the accumulator form, and every memory form; `result`
and `carry` give the byte and the bit shifted out, in numbers, from the operand and the old `C`. -/
def ShiftsAs (shift : Operand → Instr) (result : Nat → Nat → Nat) (carry : Nat → Bool) (s : State) : Prop :=
  (∃ t, exec (shift .acc) s = .next t ∧
    Regs t (BitVec.ofNat 8 (result s.a.toNat (s.flag .c).toNat)) s.x s.y s.sp ∧
    t.flag .c = carry s.a.toNat ∧ NZOf t.a t ∧ FlagsKept [.c, .n, .z] s t ∧ ImpliedFrame (shift .acc) s t) ∧
  (∀ o ea, (shift o).wf = true → (s.resolve o).1.loc = .mem ea →
    ∃ t, exec (shift o) s = .next t ∧
      t.flag .c = carry (s.operandValue o).toNat ∧
      NZOf (BitVec.ofNat 8 (result (s.operandValue o).toNat (s.flag .c).toNat)) t ∧
      FlagsKept [.c, .n, .z] s t ∧
      ModifyFrame (shift o) o ea (BitVec.ofNat 8 (result (s.operandValue o).toNat (s.flag .c).toNat)) s t)

/-- The compare `i` of the register value `reg` with its operand (42 R144), in numbers. -/
def ComparesAs (i : Instr) (o : Operand) (reg : Byte) (s : State) : Prop :=
  i.wf = true → ∃ t, exec i s = .next t ∧ Regs t s.a s.x s.y s.sp ∧
    t.flag .c = decide ((s.operandValue o).toNat ≤ reg.toNat) ∧
    t.flag .z = decide (reg.toNat = (s.operandValue o).toNat) ∧
    t.flag .n = decide (128 ≤ (reg.toNat + 256 - (s.operandValue o).toNat) % 256) ∧
    FlagsKept [.c, .z, .n] s t ∧ ReadFrame i o s t

/-- The branch `branch` at the state `s`, taken when `cond` (44 R183): the target is the signed displacement from
the instruction after the branch. -/
def BranchesWhen (branch : Operand → Instr) (cond : Bool) (s : State) : Prop :=
  ∀ d : Byte, ∃ t, exec (branch (.rel d)) s = .next t ∧
    (cond = true → t.pc = BitVec.ofInt 16 (s.pc.toNat + d.toInt) ∧
      t.cycleCounter = s.cycleCounter + s.cost (branch (.rel d)) false + s.cfg.branchTaken +
        (if t.pc.toNat / 256 ≠ s.pc.toNat / 256 then s.cfg.branchPage else 0)) ∧
    (cond = false → t.pc = s.pc ∧ t.cycleCounter = s.cycleCounter + s.cost (branch (.rel d)) false) ∧
    Regs t s.a s.x s.y s.sp ∧ t.p = s.p ∧ MemoryKept s t ∧ t.io = s.io ∧ ControlKept s t

/-- The instruction `i` writes the one flag `f` (45, section 2). -/
def WritesFlag (i : Instr) (f : Flag) (b : Bool) (s : State) : Prop :=
  ∃ t, exec i s = .next t ∧ t.flag f = b ∧ FlagsKept [f] s t ∧ Regs t s.a s.x s.y s.sp ∧ ImpliedFrame i s t

/-- The instruction `i` leaves these registers and sets `N`, `Z` from `v`, making no bus access. -/
def SetsRegister (i : Instr) (a x y sp v : Byte) (s : State) : Prop :=
  ∃ t, exec i s = .next t ∧ Regs t a x y sp ∧ NZOf v t ∧ FlagsKept [.n, .z] s t ∧ ImpliedFrame i s t

/-- The instructions that can write a flag, by 10 R16; the live `B` is only ever cleared, by a pull of `P` (10 R14). -/
def flagWriters : Flag → List Mnemonic
  | .c => [.adc, .sbc, .cmp, .cpx, .cpy, .asl, .lsr, .rol, .ror, .clc, .sec, .plp, .rti]
  | .z | .n => [.lda, .ldx, .ldy, .tax, .tay, .txa, .tya, .tsx, .pla, .adc, .sbc, .cmp, .cpx, .cpy, .inc, .dec, .inx,
      .iny, .dex, .dey, .and, .ora, .eor, .asl, .lsr, .rol, .ror, .bit, .plp, .rti]
  | .i => [.sei, .cli, .plp, .rti, .brk]
  | .d => [.sed, .cld, .plp, .rti]
  | .v => [.adc, .sbc, .bit, .clv, .plp, .rti]
  | .b => [.plp, .rti]
  | .u => [.lda, .ldx, .ldy, .tax, .tay, .txa, .tya, .tsx, .pla, .adc, .sbc, .cmp, .cpx, .cpy, .inc, .dec, .inx,
      .iny, .dex, .dey, .and, .ora, .eor, .asl, .lsr, .rol, .ror, .bit, .plp, .rti, .clc, .sec, .sei, .cli, .sed, .cld,
      .clv, .brk]

/-- The instructions that can store to memory. -/
def memoryWriters : List Mnemonic :=
  [.sta, .stx, .sty, .inc, .dec, .asl, .lsr, .rol, .ror, .jsr, .pha, .php, .brk]

/-- A valid BCD byte: both nibbles are digits (42 R141). -/
def isBCD (b : Byte) : Bool :=
  decide (b.toNat % 16 ≤ 9) && decide (b.toNat / 16 ≤ 9)

/-- The two-digit decimal number of a BCD byte. -/
def bcdValue (b : Byte) : Nat :=
  b.toNat / 16 * 10 + b.toNat % 16

end Sys2Proof.Machine
end

