-- ==== Sys2Proof/Certificates/Slice0/Obligations.lean ====
section
/-! DEFINITION. The statements about the machine. -/

open Sys2Proof Sys2Proof.Machine

/-! ### Encoding (30_encoding.md) -/

/-- The decoder reads back every encoded well-formed instruction and leaves the bytes after it (30 R70 to R75). -/
def Obligations.DecodeReadsBackEncode : Prop :=
  ∀ (i : Instr) (rest : List Byte), i.wf = true → decode (encode i ++ rest) = .instr i rest

/-- Whatever the decoder reads is well formed and its bytes are its encoding: each byte string has one meaning. -/
def Obligations.DecodedBytesAreTheEncoding : Prop :=
  ∀ (bs : List Byte) (i : Instr) (rest : List Byte),
    decode bs = .instr i rest → i.wf = true ∧ bs = encode i ++ rest

/-- The forms the instruction rules list are exactly those the opcode table encodes (30 R74, R75). -/
def Obligations.WellFormedIffSomeOpcodeEncodes : Prop :=
  ∀ i : Instr, i.wf = true ↔ (opcodeOf i).isSome = true

/-- The 105 unofficial opcode bytes (30 R75): each decodes to the fallback with 2 base cycles; every other byte has a
row of the table, and no opcode byte is rejected. That the fallback is one byte long is a choice (92 D18, log 19). -/
def Obligations.UnofficialOpcodesAreTheFallback : Prop :=
  unofficialBytes.length = 105 ∧
  (∀ op ∈ unofficialBytes, ∀ rest, decode (op :: rest) = .instr (.unofficialNop op) rest ∧
    descriptor op = ⟨op, .unofficialNop, .imp, 2, false⟩) ∧
  (∀ op : Byte, op ∉ unofficialBytes → ∃ r ∈ opcodeTable, r.opcode = op) ∧
  (∀ (op b1 b2 : Byte) (rest : List Byte), ∃ i after, decode (op :: b1 :: b2 :: rest) = .instr i after)

/-- Words written out from 30 R72, R74 and R76, one of each format and more. `BRK` leaves its padding byte, which it
fetches itself (45 R212); that the fallback leaves the byte after it is a choice (92 D18, log 19). -/
def Obligations.SampleWordsDecode : Prop :=
  decode [0b10101001, 0x10] = .instr (.lda (.imm 0x10)) [] ∧
  decode [0b10111101, 0x34, 0x12] = .instr (.lda (.absX 0x1234)) [] ∧
  decode [0b10110110, 0x10] = .instr (.ldx (.zpY 0x10)) [] ∧
  decode [0b10010001, 0x20] = .instr (.sta (.indY 0x20)) [] ∧
  decode [0b01100001, 0x20] = .instr (.adc (.indX 0x20)) [] ∧
  decode [0b00001010] = .instr (.asl .acc) [] ∧
  decode [0b01101100, 0xFF, 0x30] = .instr (.jmp (.ind 0x30FF)) [] ∧
  decode [0b11010000, 0xFB] = .instr (.bne (.rel 0xFB)) [] ∧
  decode [0b00000000, 0xEA] = .instr .brk [0xEA] ∧
  decode [0b00000010, 0xEA] = .instr (.unofficialNop 0x02) [0xEA]

/-! ### Memory and the bus (20_memory.md) -/

/-- RAM is an array of bytes (10 R20, 20 R54): a written cell reads the value and every other cell as before, and two
memories in canonical form (the model's own, log 4) that read alike are the same list. -/
def Obligations.RamIsAnArrayOfBytes : Prop :=
  (∀ (m : Memory) (a : Nat) (v : Byte) (b : Nat), Memory.wf m = true →
    Memory.read (Memory.write m a v) b = if b = a then v else Memory.read m b) ∧
  (∀ m m' : Memory, Memory.wf m = true → Memory.wf m' = true →
    (∀ a, Memory.read m a = Memory.read m' a) → m = m')

/-- The bus read under a well-formed configuration (20 R41, R43): an external hook's answer comes first; with no
value, or no such hook, the ROM byte; with no ROM, the RAM cell. The model's choices: where an external answer comes
from, the count of reads and the record (92 D27, log 11, 12); the timer answers no value (60 R247, 92 D20, log 21). -/
def Obligations.BusReadPriority : Prop :=
  ∀ (s : State) (a : Word), configWf s.cfg = true →
    (∀ h ∈ s.cfg.hooks, ∀ id, hookCovers h a = true → h.hasRead = true → h.device = .external id →
      ∀ answer, answer = s.io.answers.headD (Config.freeHookAnswer s.io.reads) →
        (s.busRead a).2 = { s with io := ⟨s.io.answers.tail, s.io.reads + 1, .read id a answer :: s.io.log⟩ } ∧
        (∀ v, answer = some v → (s.busRead a).1 = v) ∧
        (answer = none → (s.busRead a).1 = s.underHooks a)) ∧
    ((∀ h ∈ s.cfg.hooks, hookCovers h a = true → h.hasRead = true → h.device = .timer) →
      s.busRead a = (s.underHooks a, s)) ∧
    (∀ w ∈ s.cfg.romWindows, romCovers w a = true → w.bytes[a.toNat - w.start]? = some (s.underHooks a)) ∧
    ((∀ w ∈ s.cfg.romWindows, romCovers w a = false) → s.underHooks a = s.cell a)

/-- The bus write under a well-formed configuration (20 R42, R43): the hook that takes it owns it; else a ROM
window discards it; else the one RAM cell is written. The model's choices: the timer's hook makes `writeRegister` (60
R243, 92 D2, log 10), and an external handler's write is an entry of the record and nothing else (log 12). -/
def Obligations.BusWritePriority : Prop :=
  ∀ (s : State) (a : Word) (v : Byte), configWf s.cfg = true → Memory.wf s.ram = true →
    (∀ h ∈ s.cfg.hooks, hookCovers h a = true → h.hasWrite = true →
      (∀ i : Fin 8, h.device = .timer → a.toNat = h.start + i.val → s.busWrite a v =
        { s with timer := s.timer.writeRegister s.cfg.timerRegLo s.cfg.timerRegHi i v }) ∧
      (∀ id, h.device = .external id →
        s.busWrite a v = { s with io := { s.io with log := .write id a v :: s.io.log } })) ∧
    ((∀ h ∈ s.cfg.hooks, hookCovers h a = true → h.hasWrite = false) →
      ((∃ w ∈ s.cfg.romWindows, romCovers w a = true) → s.busWrite a v = s) ∧
      ((∀ w ∈ s.cfg.romWindows, romCovers w a = false) →
        s.busWrite a v = { s with ram := (s.busWrite a v).ram } ∧
        ∀ b, (s.busWrite a v).cell b = if b = a then v else s.cell b))

/-- `hookIO` accepts a hook exactly when its range is not inverted, lies in the address space, meets no registered one
(20 R45) and, for the timer's, is eight addresses with a write handler and the only one (60 R243); `mapROM` accepts a
window exactly when it lies in the address space and, if it is not empty, meets no other (20 R44). What they give is well
formed. The model's choices: the two answer `none` to refuse (log 25); windows lie in the address space (92 D1), those
that overlap are refused (93 U2), an empty one meets none, and what the timer's hook needs (92 D2; all log 10). -/
def Obligations.RegistrationRefusesMalformedRanges : Prop :=
  ∀ c : Config, configWf c = true →
    (∀ h : Hook, (hookIO h c).isSome = true ↔
      h.start ≤ h.stop ∧ h.stop ≤ 0xFFFF ∧ (∀ g ∈ c.hooks, h.stop < g.start ∨ g.stop < h.start) ∧
      (h.device = .timer → h.stop = h.start + 7 ∧ h.hasWrite = true ∧ ∀ g ∈ c.hooks, g.device ≠ .timer)) ∧
    (∀ (start : Nat) (bytes : List Byte), (mapROM start bytes c).isSome = true ↔
      start + bytes.length ≤ 65536 ∧ (bytes ≠ [] → ∀ w ∈ c.romWindows, w.bytes ≠ [] →
        start + bytes.length ≤ w.start ∨ w.start + w.bytes.length ≤ start)) ∧
    (∀ h c', hookIO h c = some c' → configWf c' = true ∧ c'.hooks = c.hooks ++ [h]) ∧
    (∀ start bytes c', mapROM start bytes c = some c' →
      configWf c' = true ∧ c'.romWindows = c.romWindows ++ [⟨start, bytes⟩])

/-! ### Execution and addressing (40_execution_and_addressing.md) -/

/-- Direct and indexed effective addresses in numbers (40 R94 to R101, R105): zero-page indexing stays in page 0,
absolute indexing wraps at 16 bits and reports the page change, a branch target is signed from `PC`. And what an operand
loads (40 R107): `A`, the byte itself, or one bus read at the effective address, after the resolver's own reads. -/
def Obligations.DirectAddressingModes : Prop :=
  ∀ (s : State) (z : Byte) (w : Word),
    s.resolve .acc = (⟨.acc, false⟩, s) ∧
    s.resolve (.imm z) = (⟨.imm z, false⟩, s) ∧
    s.resolve (.zp z) = (⟨.mem (BitVec.ofNat 16 z.toNat), false⟩, s) ∧
    s.resolve (.zpX z) = (⟨.mem (BitVec.ofNat 16 ((z.toNat + s.x.toNat) % 256)), false⟩, s) ∧
    s.resolve (.zpY z) = (⟨.mem (BitVec.ofNat 16 ((z.toNat + s.y.toNat) % 256)), false⟩, s) ∧
    s.resolve (.abs w) = (⟨.mem w, false⟩, s) ∧
    s.resolve (.absX w) = (⟨.mem (BitVec.ofNat 16 (w.toNat + s.x.toNat)),
      decide ((w.toNat + s.x.toNat) % 65536 / 256 ≠ w.toNat / 256)⟩, s) ∧
    s.resolve (.absY w) = (⟨.mem (BitVec.ofNat 16 (w.toNat + s.y.toNat)),
      decide ((w.toNat + s.y.toNat) % 65536 / 256 ≠ w.toNat / 256)⟩, s) ∧
    s.resolve (.rel z) = (⟨.mem (BitVec.ofInt 16 (s.pc.toNat + z.toInt)), false⟩, s) ∧
    (s.operandValue .acc = s.a ∧ s.afterLoad .acc = s) ∧
    (s.operandValue (.imm z) = z ∧ s.afterLoad (.imm z) = s) ∧
    (∀ o ea, (s.resolve o).1.loc = .mem ea →
      s.operandValue o = ((s.resolve o).2.busRead ea).1 ∧ s.afterLoad o = ((s.resolve o).2.busRead ea).2)

/-- Indirect effective addresses (40 R102, R103, R104, R110): the pointer's bytes are read low first, the second
from page 0 again (`ZP_PTR_WRAP`) or, for `JMP`, from the page of the pointer. -/
def Obligations.IndirectAddressingModes : Prop :=
  ∀ (s : State) (z : Byte) (w lo hi : Word),
    (lo.toNat = (z.toNat + s.x.toNat) % 256 →
      hi.toNat = (if s.cfg.zpPtrWrap then (lo.toNat + 1) % 256 else lo.toNat + 1) →
      s.resolve (.indX z) =
        (⟨.mem (BitVec.ofNat 16 ((s.busRead lo).1.toNat + 256 * ((s.busRead lo).2.busRead hi).1.toNat)), false⟩,
          ((s.busRead lo).2.busRead hi).2)) ∧
    (lo.toNat = z.toNat →
      hi.toNat = (if s.cfg.zpPtrWrap then (lo.toNat + 1) % 256 else lo.toNat + 1) →
      ∀ base, base = (s.busRead lo).1.toNat + 256 * ((s.busRead lo).2.busRead hi).1.toNat →
      s.resolve (.indY z) =
        (⟨.mem (BitVec.ofNat 16 (base + s.y.toNat)), decide ((base + s.y.toNat) % 65536 / 256 ≠ base / 256)⟩,
          ((s.busRead lo).2.busRead hi).2)) ∧
    (lo = w → hi.toNat = w.toNat / 256 * 256 + (w.toNat % 256 + 1) % 256 →
      s.resolve (.ind w) =
        (⟨.mem (BitVec.ofNat 16 ((s.busRead lo).1.toNat + 256 * ((s.busRead lo).2.busRead hi).1.toNat)), false⟩,
          ((s.busRead lo).2.busRead hi).2))

/-- `Push` and `Pull` in numbers (40 R109): store at `0x0100 + S` and decrement, increment and load; on plain RAM a
pull gives back what the push stored. Storing before the decrement is a choice (92 D15, log 20). -/
def Obligations.StackPushesAndPulls : Prop :=
  ∀ (s : State) (v : Byte) (a : Word),
    (a.toNat = 0x100 + s.sp.toNat →
      s.push v = { s.busWrite a v with sp := BitVec.ofNat 8 (s.sp.toNat + 255) } ∧
      (Memory.wf s.ram = true → plainAddr s.cfg a = true →
        (s.push v).pull.1 = v ∧ (s.push v).pull.2.sp = s.sp)) ∧
    (a.toNat = 0x100 + (s.sp.toNat + 1) % 256 →
      s.pull.1 = (s.busRead a).1 ∧
      s.pull.2 = { (s.busRead a).2 with sp := BitVec.ofNat 8 (s.sp.toNat + 1) })

/-- Every well-formed instruction completes in every state: no fault, no refusal (60 R230). -/
def Obligations.EveryInstructionCompletes : Prop :=
  ∀ (i : Instr) (s : State), i.wf = true →
    ∃ t, exec i s = .next t ∧ ControlKept s t ∧ s.cycleCounter + s.cost i false ≤ t.cycleCounter

/-- The cycles of an instruction (40 R91, 70 R280). With the default table, `baseCycles` and one more on a page crossing
for exactly the read-type instructions in the modes that can cross a page (30 R74, 40 R106); the counts are PRESUMED by
the spec (log 7). With another table `CYCLES`, what its entry at the opcode byte says. -/
def Obligations.CyclesFollowTheTable : Prop :=
  ∀ (i : Instr) (s : State) (crossed : Bool), i.wf = true →
    (s.cfg.cycles = none → s.cost i crossed = baseCycles i.mnemonic i.mode +
      (if crossed = true ∧ i.mnemonic ∈ [.lda, .ldx, .ldy, .adc, .sbc, .and, .ora, .eor, .cmp] ∧
        i.mode ∈ [.absX, .absY, .indY] then 1 else 0)) ∧
    (∀ t op operands e, s.cfg.cycles = some t → encode i = op :: operands → t[op.toNat]? = some e →
      s.cost i crossed = e.base + (if crossed = true ∧ e.pageCross = true then 1 else 0))

/-! ### Loads, stores, transfers (41_load_store_transfer.md) -/

/-- `LDA`, `LDX`, `LDY` in every form (41 R120, R121, R122). -/
def Obligations.LoadsWriteTheRegisterAndNZ : Prop :=
  ∀ (s : State) (o : Operand),
    ((Instr.lda o).wf = true → ∃ t, exec (.lda o) s = .next t ∧ Regs t (s.operandValue o) s.x s.y s.sp ∧
      NZOf (s.operandValue o) t ∧ FlagsKept [.n, .z] s t ∧ ReadFrame (.lda o) o s t) ∧
    ((Instr.ldx o).wf = true → ∃ t, exec (.ldx o) s = .next t ∧ Regs t s.a (s.operandValue o) s.y s.sp ∧
      NZOf (s.operandValue o) t ∧ FlagsKept [.n, .z] s t ∧ ReadFrame (.ldx o) o s t) ∧
    ((Instr.ldy o).wf = true → ∃ t, exec (.ldy o) s = .next t ∧ Regs t s.a s.x (s.operandValue o) s.sp ∧
      NZOf (s.operandValue o) t ∧ FlagsKept [.n, .z] s t ∧ ReadFrame (.ldy o) o s t)

/-- `STA`, `STX`, `STY` in every form (41 R123, R124, R125): every form resolves to an address, the register is
stored there, and nothing else changes. -/
def Obligations.StoresWriteOneByte : Prop :=
  ∀ (s : State) (o : Operand),
    ((Instr.sta o).wf = true ∨ (Instr.stx o).wf = true ∨ (Instr.sty o).wf = true →
      ∃ ea, (s.resolve o).1.loc = .mem ea) ∧
    ∀ ea, (s.resolve o).1.loc = .mem ea →
      ((Instr.sta o).wf = true → ∃ t, exec (.sta o) s = .next t ∧ StoreFrame (.sta o) o ea s.a s t) ∧
      ((Instr.stx o).wf = true → ∃ t, exec (.stx o) s = .next t ∧ StoreFrame (.stx o) o ea s.x s t) ∧
      ((Instr.sty o).wf = true → ∃ t, exec (.sty o) s = .next t ∧ StoreFrame (.sty o) o ea s.y s t)

/-- The transfers (41 R126 to R130) copy a register and set `N`, `Z`; `TXS` (41 R131) writes no flag. -/
def Obligations.TransfersCopyARegister : Prop :=
  ∀ s : State,
    SetsRegister .tax s.a s.a s.y s.sp s.a s ∧
    SetsRegister .tay s.a s.x s.a s.sp s.a s ∧
    SetsRegister .txa s.x s.x s.y s.sp s.x s ∧
    SetsRegister .tya s.y s.x s.y s.sp s.y s ∧
    SetsRegister .tsx s.a s.sp s.y s.sp s.sp s ∧
    ∃ t, exec .txs s = .next t ∧ Regs t s.a s.x s.y s.x ∧ t.p = s.p ∧ ImpliedFrame .txs s t

/-! ### Arithmetic (42_arithmetic.md) -/

/-- `AddBinary` is the exact sum narrowed: carry is unsigned and overflow signed overflow (42 R140). -/
def Obligations.BinaryAdderIsExact : Prop :=
  ∀ (a v : Byte) (c : Bool),
    (addBinary a v c).result.toNat = (a.toNat + v.toNat + c.toNat) % 256 ∧
    (addBinary a v c).carry = decide (255 < a.toNat + v.toNat + c.toNat) ∧
    (addBinary a v c).overflow =
      decide (a.toInt + v.toInt + c.toNat < -128 ∨ 127 < a.toInt + v.toInt + c.toNat)

/-- `AddDecimal` on valid BCD is the decimal sum and its carry; the overflow is the binary one (42 R141). -/
def Obligations.DecimalAdderIsDecimalOnBCD : Prop :=
  ∀ (a v : Byte) (c : Bool),
    (addDecimal a v c).overflow = (addBinary a v c).overflow ∧
    (isBCD a = true → isBCD v = true →
      isBCD (addDecimal a v c).result = true ∧
      bcdValue (addDecimal a v c).result = (bcdValue a + bcdValue v + c.toNat) % 100 ∧
      (addDecimal a v c).carry = decide (100 ≤ bcdValue a + bcdValue v + c.toNat))

/-- `ADC` in every form (42 R142): the binary sum in numbers when `D` is 0, the decimal adder when `D` is 1. Choices
(92 D13, log 16): with `D` = 1, `N` and `Z` are those of the corrected byte, and every byte takes the decimal adder. -/
def Obligations.AdcAddsWithCarry : Prop :=
  ∀ (s : State) (o : Operand), (Instr.adc o).wf = true →
    ∃ t, exec (.adc o) s = .next t ∧ Regs t t.a s.x s.y s.sp ∧ NZOf t.a t ∧ FlagsKept [.c, .v, .n, .z] s t ∧
      ReadFrame (.adc o) o s t ∧
      ∀ v c, v = s.operandValue o → c = (s.flag .c).toNat →
        (s.flag .d = false →
          t.a.toNat = (s.a.toNat + v.toNat + c) % 256 ∧
          t.flag .c = decide (255 < s.a.toNat + v.toNat + c) ∧
          t.flag .v = decide (s.a.toInt + v.toInt + c < -128 ∨ 127 < s.a.toInt + v.toInt + c)) ∧
        (s.flag .d = true →
          t.a = (addDecimal s.a v (s.flag .c)).result ∧
          t.flag .c = (addDecimal s.a v (s.flag .c)).carry ∧
          t.flag .v = (addDecimal s.a v (s.flag .c)).overflow)

/-- `SBC` in every form (42 R143): the binary difference in numbers when `D` is 0; when `D` is 1, the decimal adder
on the complemented operand, which is a choice, unsafe for a claim about decimal subtraction (92 D14, 93 U5, log 16). -/
def Obligations.SbcSubtractsWithBorrow : Prop :=
  ∀ (s : State) (o : Operand), (Instr.sbc o).wf = true →
    ∃ t, exec (.sbc o) s = .next t ∧ Regs t t.a s.x s.y s.sp ∧ NZOf t.a t ∧ FlagsKept [.c, .v, .n, .z] s t ∧
      ReadFrame (.sbc o) o s t ∧
      ∀ v borrow, v = s.operandValue o → borrow = 1 - (s.flag .c).toNat →
        (s.flag .d = false →
          t.a.toNat = (s.a.toNat + 256 - v.toNat - borrow) % 256 ∧
          t.flag .c = decide (v.toNat + borrow ≤ s.a.toNat) ∧
          t.flag .v = decide (s.a.toInt - v.toInt - borrow < -128 ∨ 127 < s.a.toInt - v.toInt - borrow)) ∧
        (s.flag .d = true →
          t.a = (addDecimal s.a (v ^^^ 0xFF) (s.flag .c)).result ∧
          t.flag .c = (addDecimal s.a (v ^^^ 0xFF) (s.flag .c)).carry ∧
          t.flag .v = (addDecimal s.a (v ^^^ 0xFF) (s.flag .c)).overflow)

/-- `CMP`, `CPX`, `CPY` in every form (42 R144 to R147): no register, `V` or `D` changes or matters. -/
def Obligations.ComparesSetCarryZeroNegative : Prop :=
  ∀ (s : State) (o : Operand),
    ComparesAs (.cmp o) o s.a s ∧ ComparesAs (.cpx o) o s.x s ∧ ComparesAs (.cpy o) o s.y s

/-- `INC` and `DEC` in every form (42 R148, R149). -/
def Obligations.IncDecModifyOneByte : Prop :=
  ∀ (s : State) (o : Operand),
    ((Instr.inc o).wf = true ∨ (Instr.dec o).wf = true → ∃ ea, (s.resolve o).1.loc = .mem ea) ∧
    ∀ ea v, (s.resolve o).1.loc = .mem ea → v = (s.operandValue o).toNat →
      ((Instr.inc o).wf = true → ∃ t, exec (.inc o) s = .next t ∧ NZOf (BitVec.ofNat 8 (v + 1)) t ∧
        FlagsKept [.n, .z] s t ∧ ModifyFrame (.inc o) o ea (BitVec.ofNat 8 (v + 1)) s t) ∧
      ((Instr.dec o).wf = true → ∃ t, exec (.dec o) s = .next t ∧ NZOf (BitVec.ofNat 8 (v + 255)) t ∧
        FlagsKept [.n, .z] s t ∧ ModifyFrame (.dec o) o ea (BitVec.ofNat 8 (v + 255)) s t)

/-- `INX`, `INY`, `DEX`, `DEY` (42 R150 to R153) count modulo 256 and leave `C` and `V`. -/
def Obligations.IndexRegistersCount : Prop :=
  ∀ s : State,
    SetsRegister .inx s.a (BitVec.ofNat 8 (s.x.toNat + 1)) s.y s.sp (BitVec.ofNat 8 (s.x.toNat + 1)) s ∧
    SetsRegister .iny s.a s.x (BitVec.ofNat 8 (s.y.toNat + 1)) s.sp (BitVec.ofNat 8 (s.y.toNat + 1)) s ∧
    SetsRegister .dex s.a (BitVec.ofNat 8 (s.x.toNat + 255)) s.y s.sp (BitVec.ofNat 8 (s.x.toNat + 255)) s ∧
    SetsRegister .dey s.a s.x (BitVec.ofNat 8 (s.y.toNat + 255)) s.sp (BitVec.ofNat 8 (s.y.toNat + 255)) s

/-! ### Logic and shifts (43_logic_shift.md) -/

/-- `AND`, `ORA`, `EOR` in every form, bit by bit (43 R160, R161, R162). -/
def Obligations.LogicalOperationsAreBitwise : Prop :=
  ∀ (s : State) (o : Operand),
    ((Instr.and o).wf = true → ∃ t, exec (.and o) s = .next t ∧ Regs t t.a s.x s.y s.sp ∧
      (∀ k, t.a.getLsbD k = (s.a.getLsbD k && (s.operandValue o).getLsbD k)) ∧
      NZOf t.a t ∧ FlagsKept [.n, .z] s t ∧ ReadFrame (.and o) o s t) ∧
    ((Instr.ora o).wf = true → ∃ t, exec (.ora o) s = .next t ∧ Regs t t.a s.x s.y s.sp ∧
      (∀ k, t.a.getLsbD k = (s.a.getLsbD k || (s.operandValue o).getLsbD k)) ∧
      NZOf t.a t ∧ FlagsKept [.n, .z] s t ∧ ReadFrame (.ora o) o s t) ∧
    ((Instr.eor o).wf = true → ∃ t, exec (.eor o) s = .next t ∧ Regs t t.a s.x s.y s.sp ∧
      (∀ k, t.a.getLsbD k = (s.a.getLsbD k ^^ (s.operandValue o).getLsbD k)) ∧
      NZOf t.a t ∧ FlagsKept [.n, .z] s t ∧ ReadFrame (.eor o) o s t)

/-- `BIT` in every form (43 R163): `Z` from `A & M`, `N` and `V` from bits 7 and 6 of `M`, no register written. -/
def Obligations.BitTestsMemory : Prop :=
  ∀ (s : State) (o : Operand), (Instr.bit o).wf = true →
    ∃ t, exec (.bit o) s = .next t ∧ Regs t s.a s.x s.y s.sp ∧
      (t.flag .z = true ↔ ∀ k, (s.a.getLsbD k && (s.operandValue o).getLsbD k) = false) ∧
      t.flag .n = decide (128 ≤ (s.operandValue o).toNat) ∧
      t.flag .v = decide (64 ≤ (s.operandValue o).toNat % 128) ∧
      FlagsKept [.z, .n, .v] s t ∧ ReadFrame (.bit o) o s t

/-- `ASL`, `LSR`, `ROL`, `ROR` in the accumulator and every memory form, in numbers (43 R164 to R168). -/
def Obligations.ShiftsMoveOneBit : Prop :=
  ∀ s : State,
    (∀ o, o ≠ .acc → (Instr.asl o).wf = true ∨ (Instr.lsr o).wf = true ∨ (Instr.rol o).wf = true ∨
      (Instr.ror o).wf = true → ∃ ea, (s.resolve o).1.loc = .mem ea) ∧
    ShiftsAs .asl (fun v _ => v * 2) (fun v => decide (128 ≤ v)) s ∧
    ShiftsAs .lsr (fun v _ => v / 2) (fun v => decide (v % 2 = 1)) s ∧
    ShiftsAs .rol (fun v c => v * 2 + c) (fun v => decide (128 ≤ v)) s ∧
    ShiftsAs .ror (fun v c => v / 2 + 128 * c) (fun v => decide (v % 2 = 1)) s

/-- Nine `ROL A` (or nine `ROR A`) restore the byte and the carry (43 R167). -/
def Obligations.NineRotatesRestore : Prop :=
  ∀ s : State,
    (∃ t, execTimes (.rol .acc) 9 s = .next t ∧ t.a = s.a ∧ t.flag .c = s.flag .c) ∧
    (∃ t, execTimes (.ror .acc) 9 s = .next t ∧ t.a = s.a ∧ t.flag .c = s.flag .c)

/-! ### Control flow (44_control_flow.md) -/

/-- `JMP` absolute and indirect (44 R180): `PC` is the target; the indirect form reads its high byte from the page
of the pointer. -/
def Obligations.JmpGoesToItsTarget : Prop :=
  ∀ (s : State) (w hi : Word), hi.toNat = w.toNat / 256 * 256 + (w.toNat % 256 + 1) % 256 →
    (∃ t, exec (.jmp (.abs w)) s = .next t ∧ t.pc = w ∧ t.io = s.io ∧ Regs t s.a s.x s.y s.sp ∧ t.p = s.p ∧
      t.cycleCounter = s.cycleCounter + s.cost (.jmp (.abs w)) false ∧ MemoryKept s t ∧ ControlKept s t) ∧
    (∃ t, exec (.jmp (.ind w)) s = .next t ∧
      t.pc.toNat = (s.busRead w).1.toNat + 256 * ((s.busRead w).2.busRead hi).1.toNat ∧
      t.io = ((s.busRead w).2.busRead hi).2.io ∧ Regs t s.a s.x s.y s.sp ∧ t.p = s.p ∧
      t.cycleCounter = s.cycleCounter + s.cost (.jmp (.ind w)) false ∧ MemoryKept s t ∧ ControlKept s t)

/-- `JSR` (44 R181): the address of its last byte is pushed high byte first, and `PC` is the target. -/
def Obligations.JsrPushesTheReturnAddress : Prop :=
  ∀ (s : State) (w : Word) (ws : List (Word × Byte)),
    ws = [(stackAddr s.sp, BitVec.ofNat 8 ((s.pc.toNat + 65535) % 65536 / 256)),
          (stackAddr (s.sp - 1), BitVec.ofNat 8 (s.pc.toNat + 65535))] →
    ∃ t, exec (.jsr (.abs w)) s = .next t ∧ t.pc = w ∧ Regs t s.a s.x s.y (s.sp - 2) ∧ t.p = s.p ∧
      t.cycleCounter = s.cycleCounter + s.cost (.jsr (.abs w)) false ∧ Stored ws s s t ∧
      t.io = (s.busWrites ws).io ∧ ControlKept s t

/-- `RTS` (44 R182): `PC` is the pulled address, low byte first, plus one. -/
def Obligations.RtsReturnsPastThePulledAddress : Prop :=
  ∀ (s : State) (lo hi : Byte × State),
    lo = s.busRead (stackAddr (s.sp + 1)) → hi = lo.2.busRead (stackAddr (s.sp + 2)) →
    ∃ t, exec .rts s = .next t ∧ t.pc.toNat = (lo.1.toNat + 256 * hi.1.toNat + 1) % 65536 ∧
      Regs t s.a s.x s.y (s.sp + 2) ∧ t.p = s.p ∧ t.cycleCounter = s.cycleCounter + s.cost .rts false ∧
      t.io = hi.2.io ∧ MemoryKept s t ∧ ControlKept s t

/-- `JSR` then `RTS` returns to the instruction after the `JSR` with `S` restored, where the two stack bytes are
plain RAM (44 R182). -/
def Obligations.RtsUndoesJsr : Prop :=
  ∀ (s t u : State) (w : Word), Memory.wf s.ram = true →
    plainAddr s.cfg (stackAddr s.sp) = true → plainAddr s.cfg (stackAddr (s.sp - 1)) = true →
    exec (.jsr (.abs w)) s = .next t → u.sp = t.sp → u.cfg = t.cfg → u.ram = t.ram →
    ∃ r, exec .rts u = .next r ∧ r.pc = s.pc ∧ r.sp = s.sp ∧ (∀ a, r.cell a = t.cell a)

/-- The eight conditional branches, taken and not taken (44 R183 to R191). -/
def Obligations.BranchesFollowTheirFlag : Prop :=
  ∀ s : State,
    BranchesWhen .bpl (!s.flag .n) s ∧ BranchesWhen .bmi (s.flag .n) s ∧
    BranchesWhen .bvc (!s.flag .v) s ∧ BranchesWhen .bvs (s.flag .v) s ∧
    BranchesWhen .bcc (!s.flag .c) s ∧ BranchesWhen .bcs (s.flag .c) s ∧
    BranchesWhen .bne (!s.flag .z) s ∧ BranchesWhen .beq (s.flag .z) s

/-! ### Stack, flags, system (45_stack_flags_system.md) -/

/-- `PHA` pushes `A`, `PHP` pushes `P` with bits 4 and 5 set; the live `P` is kept (45 R200, R201). That `PHP` pushes
Break set is a choice (92 D16, log 17). -/
def Obligations.PhaPhpPushOneByte : Prop :=
  ∀ s : State,
    (∃ t, exec .pha s = .next t ∧ Stored [(stackAddr s.sp, s.a)] s s t ∧
      t.io = (s.busWrites [(stackAddr s.sp, s.a)]).io ∧ Regs t s.a s.x s.y (s.sp - 1) ∧ t.p = s.p ∧ t.pc = s.pc ∧
      t.cycleCounter = s.cycleCounter + s.cost .pha false ∧ ControlKept s t) ∧
    (∃ t, exec .php s = .next t ∧ Stored [(stackAddr s.sp, s.p ||| 0x30)] s s t ∧
      t.io = (s.busWrites [(stackAddr s.sp, s.p ||| 0x30)]).io ∧ Regs t s.a s.x s.y (s.sp - 1) ∧ t.p = s.p ∧
      t.pc = s.pc ∧ t.cycleCounter = s.cycleCounter + s.cost .php false ∧ ControlKept s t)

/-- `PLA` pulls `A` and sets `N`, `Z`; `PLP` pulls every flag, Break cleared and bit 5 set (45 R202, R203). What `PLP`
does to bits 4 and 5 is a choice (92 D16, log 17). -/
def Obligations.PlaPlpPullOneByte : Prop :=
  ∀ (s : State) (v : Byte × State), v = s.busRead (stackAddr (s.sp + 1)) →
    (∃ t, exec .pla s = .next t ∧ Regs t v.1 s.x s.y (s.sp + 1) ∧ NZOf v.1 t ∧ FlagsKept [.n, .z] s t ∧
      t.pc = s.pc ∧ t.io = v.2.io ∧ t.cycleCounter = s.cycleCounter + s.cost .pla false ∧ MemoryKept s t ∧
      ControlKept s t) ∧
    (∃ t, exec .plp s = .next t ∧ Regs t s.a s.x s.y (s.sp + 1) ∧ t.p = (v.1 &&& 0xEF) ||| 0x20 ∧
      t.flag .b = false ∧ t.flag .u = true ∧ (∀ f ∈ [.n, .v, .d, .i, .z, .c], t.flag f = getFlag f v.1) ∧
      t.pc = s.pc ∧ t.io = v.2.io ∧ t.cycleCounter = s.cycleCounter + s.cost .plp false ∧ MemoryKept s t ∧
      ControlKept s t)

/-- The seven flag instructions write one flag each, in one byte and, with the default table, 2 cycles (45 R204 to
R210). -/
def Obligations.FlagInstructionsWriteOneFlag : Prop :=
  ∀ s : State,
    WritesFlag .clc .c false s ∧ WritesFlag .sec .c true s ∧ WritesFlag .cli .i false s ∧
    WritesFlag .sei .i true s ∧ WritesFlag .cld .d false s ∧ WritesFlag .sed .d true s ∧
    WritesFlag .clv .v false s ∧
    ∀ i ∈ [Instr.clc, .sec, .cli, .sei, .cld, .sed, .clv],
      (encode i).length = 1 ∧ (s.cfg.cycles = none → s.cost i false = 2)

/-- `NOP` and every unofficial opcode only add their cycles, 2 with the table of 30 R74 (45 R211, R214). That an
unofficial opcode makes no bus access is a choice (92 D18, log 19). -/
def Obligations.NopsOnlyTakeTime : Prop :=
  ∀ (s : State) (op : Byte),
    exec .nop s = .next { s with cycleCounter := s.cycleCounter + s.cost .nop false } ∧
    (op ∈ unofficialBytes → exec (.unofficialNop op) s =
      .next { s with cycleCounter := s.cycleCounter + s.cost (.unofficialNop op) false }) ∧
    (s.cfg.cycles = none → s.cost .nop false = 2 ∧ (op ∈ unofficialBytes → s.cost (.unofficialNop op) false = 2))

/-- `BRK` (45 R212): the padding byte is fetched, then the entry through the IRQ vector pushes the address after it
and `P` with Break and bit 5 set. The vector, the bus read of the padding byte and the kept flags are choices (92 D17,
D25, log 18). -/
def Obligations.BrkEntersThroughTheIrqVector : Prop :=
  ∀ s u : State, u = { (s.busRead s.pc).2 with pc := s.pc + 1 } →
    ∃ t, exec .brk s = .next t ∧ Entered 0xFFFE (s.p ||| 0x30) u t ∧
      t.cycleCounter = s.cycleCounter + s.cost .brk false ∧ ControlKept s t

/-- `RTI` (45 R213): pulls the status, Break cleared and bit 5 set, then `PC`, low byte first and exactly. That
"normalized on read" clears Break is a choice (92 D16, log 17). -/
def Obligations.RtiRestoresStatusAndPC : Prop :=
  ∀ (s : State) (v lo hi : Byte × State), v = s.busRead (stackAddr (s.sp + 1)) →
    lo = v.2.busRead (stackAddr (s.sp + 2)) → hi = lo.2.busRead (stackAddr (s.sp + 3)) →
    ∃ t, exec .rti s = .next t ∧ t.pc.toNat = lo.1.toNat + 256 * hi.1.toNat ∧ t.p = (v.1 &&& 0xEF) ||| 0x20 ∧
      t.flag .b = false ∧ t.flag .u = true ∧ (∀ f ∈ [.n, .v, .d, .i, .z, .c], t.flag f = getFlag f v.1) ∧
      Regs t s.a s.x s.y (s.sp + 3) ∧ t.io = hi.2.io ∧ t.cycleCounter = s.cycleCounter + s.cost .rti false ∧
      MemoryKept s t ∧ ControlKept s t

/-- `RTI` after a `BRK` resumes two bytes past the `BRK` opcode, with `P` and `S` as they were, where the three
stack bytes are plain RAM (45 R212, R213). `s.pc` is the address after the opcode. -/
def Obligations.RtiUndoesBrk : Prop :=
  ∀ s t u : State, Memory.wf s.ram = true → s.p &&& 0x30 = 0x20 →
    plainAddr s.cfg (stackAddr s.sp) = true → plainAddr s.cfg (stackAddr (s.sp - 1)) = true →
    plainAddr s.cfg (stackAddr (s.sp - 2)) = true →
    exec .brk s = .next t → u.sp = t.sp → u.cfg = t.cfg → u.ram = t.ram →
    ∃ r, exec .rti u = .next r ∧ r.pc = s.pc + 1 ∧ r.p = s.p ∧ r.sp = s.sp

/-! ### Which instructions write what (10_state.md) -/

/-- Each flag is its bit of `P` (10 R13). An instruction changes a flag only if 10 R16 lists it; the live Break flag is
only ever cleared. -/
def Obligations.OnlyListedInstructionsWriteAFlag : Prop :=
  (∀ s : State,
    s.flag .c = decide (s.p.toNat % 2 = 1) ∧ s.flag .z = decide (s.p.toNat / 2 % 2 = 1) ∧
    s.flag .i = decide (s.p.toNat / 4 % 2 = 1) ∧ s.flag .d = decide (s.p.toNat / 8 % 2 = 1) ∧
    s.flag .b = decide (s.p.toNat / 16 % 2 = 1) ∧ s.flag .u = decide (s.p.toNat / 32 % 2 = 1) ∧
    s.flag .v = decide (s.p.toNat / 64 % 2 = 1) ∧ s.flag .n = decide (s.p.toNat / 128 = 1)) ∧
  ∀ (i : Instr) (s t : State) (f : Flag), exec i s = .next t →
    (i.mnemonic ∉ flagWriters f → t.flag f = s.flag f) ∧
    (t.flag .b = true → s.flag .b = true) ∧ (s.flag .u = true → t.flag .u = true)

/-- `A`, `X`, `Y` and `S` change only through the instructions 10 R10 and R11 name. -/
def Obligations.OnlyListedInstructionsWriteARegister : Prop :=
  ∀ (i : Instr) (s t : State), exec i s = .next t →
    (i.mnemonic ∉ [.lda, .pla, .txa, .tya, .adc, .sbc, .and, .ora, .eor, .asl, .lsr, .rol, .ror] → t.a = s.a) ∧
    (i.mnemonic ∈ [.asl, .lsr, .rol, .ror] → i.mode ≠ .acc → t.a = s.a) ∧
    (i.mnemonic ∉ [.ldx, .tax, .tsx, .inx, .dex] → t.x = s.x) ∧
    (i.mnemonic ∉ [.ldy, .tay, .iny, .dey] → t.y = s.y) ∧
    (i.mnemonic ∉ [.txs, .pha, .php, .pla, .plp, .jsr, .rts, .brk, .rti] → t.sp = s.sp)

/-- Only stores, memory read-modify-writes and pushes change a byte of RAM or the timer. -/
def Obligations.OnlyStoresAndPushesWriteMemory : Prop :=
  ∀ (i : Instr) (s t : State), exec i s = .next t → i.mnemonic ∉ memoryWriters ∨ i.mode = .acc → MemoryKept s t

/-! ### Interrupts (60_exceptions.md) -/

/-- `nmi()` always latches a request; `irq()` latches one only while `P.I` is 0, and is otherwise lost
(60 R232, R233, R241). -/
def Obligations.IrqIsGatedWhenItIsRequested : Prop :=
  ∀ s : State,
    s.nmi = { s with pendingNMI := true } ∧
    (s.flag .i = false → s.irq = { s with pendingIRQ := true }) ∧
    (s.flag .i = true → s.irq = s)

/-- A step with a request pending (40 R90; 60 R235, R236): an NMI first, through 0xFFFA, leaving a pending IRQ; then an
IRQ through 0xFFFE; 7 cycles, Break clear in the pushed status. Choices: an IRQ latched earlier is serviced whatever `P.I`
is now, unless `irqRecheckMask`, with which it stays pending while `P.I` is 1 and an instruction runs (90 C1, 92 D9, log
9); the other flags are kept (92 D25, log 18). -/
def Obligations.PendingRequestsAreServicedNmiFirst : Prop :=
  ∀ s : State, s.running = true →
    (s.pendingNMI = true → ∃ t, s.cpuStep = .next t ∧ Entered 0xFFFA (s.p &&& 0xEF ||| 0x20) s t ∧
      t.pendingNMI = false ∧ t.pendingIRQ = s.pendingIRQ ∧ t.cycleCounter = s.cycleCounter + 7 ∧
      t.running = true ∧ t.cfg = s.cfg ∧ t.inputs = s.inputs) ∧
    (s.pendingNMI = false → s.pendingIRQ = true → (s.cfg.irqRecheckMask = true → s.flag .i = false) →
      ∃ t, s.cpuStep = .next t ∧ Entered 0xFFFE (s.p &&& 0xEF ||| 0x20) s t ∧
      t.pendingNMI = false ∧ t.pendingIRQ = false ∧ t.cycleCounter = s.cycleCounter + 7 ∧
      t.running = true ∧ t.cfg = s.cfg ∧ t.inputs = s.inputs) ∧
    (s.pendingNMI = false → s.pendingIRQ = true → s.cfg.irqRecheckMask = true → s.flag .i = true →
      ∃ t, s.cpuStep = .next t ∧ t.pendingNMI = false ∧ t.pendingIRQ = true ∧
        ∀ n i, decode (s.fetchBytes n).1 = .instr i [] → exec i (s.fetchBytes n).2 = .next t)

/-- `RTI` after an interrupt service resumes exactly the interrupted instruction, with `P` and `S` as they were,
where the three stack bytes are plain RAM (60 R236, R238). -/
def Obligations.RtiUndoesAnInterruptService : Prop :=
  ∀ (s u : State) (vector : Word), Memory.wf s.ram = true → s.p &&& 0x30 = 0x20 →
    plainAddr s.cfg (stackAddr s.sp) = true → plainAddr s.cfg (stackAddr (s.sp - 1)) = true →
    plainAddr s.cfg (stackAddr (s.sp - 2)) = true →
    u.sp = (s.serviceInterrupt vector).sp → u.cfg = s.cfg → u.ram = (s.serviceInterrupt vector).ram →
    ∃ r, exec .rti u = .next r ∧ r.pc = s.pc ∧ r.p = s.p ∧ r.sp = s.sp

/-! ### The timer (60_exceptions.md) -/

/-- The timer's registers (60 R244, R245, R246): the low latch byte; the high latch byte, which reloads the counter
and arms; every other register is only stored, which is a choice (92 D20, log 21). -/
def Obligations.TimerRegisterWrites : Prop :=
  ∀ (t : Timer) (lo hi i : Fin 8) (v : Byte), lo ≠ hi →
    (t.writeRegister lo hi i v).regs = t.regs.set i v ∧
    (i = lo → (t.writeRegister lo hi i v).latch.toNat = t.latch.toNat / 256 * 256 + v.toNat ∧
      (t.writeRegister lo hi i v).counter = t.counter ∧ (t.writeRegister lo hi i v).enabled = t.enabled) ∧
    (i = hi → (t.writeRegister lo hi i v).latch.toNat = v.toNat * 256 + t.latch.toNat % 256 ∧
      (t.writeRegister lo hi i v).counter = (t.writeRegister lo hi i v).latch.toNat ∧
      (t.writeRegister lo hi i v).enabled = true) ∧
    (i ≠ lo → i ≠ hi → (t.writeRegister lo hi i v).latch = t.latch ∧
      (t.writeRegister lo hi i v).counter = t.counter ∧ (t.writeRegister lo hi i v).enabled = t.enabled)

/-- `tick(n)` (60 R248): not armed, nothing; armed and above zero after the subtraction, only the counter; else one
reload, which replaces the counter, and one `irq()`: that the overshoot is dropped and one call makes at most one request
is a choice (92 D21, log 21). -/
def Obligations.TickReloadsOnExpiry : Prop :=
  ∀ (s : State) (n : Nat),
    (s.timer.enabled = false → s.tick n = s) ∧
    (s.timer.enabled = true → 0 < s.timer.counter - n →
      s.tick n = { s with timer := { s.timer with counter := s.timer.counter - n } }) ∧
    (s.timer.enabled = true → s.timer.counter - n ≤ 0 →
      s.tick n = State.irq { s with timer := { s.timer with
        counter := if s.timer.latch.toNat = 0 then 65536 else s.timer.latch.toNat } })

/-- Ticks add up while the timer does not expire: `tick(n)` then `tick(m)` is `tick(n + m)` (60 R248). -/
def Obligations.TicksAddUpBeforeExpiry : Prop :=
  ∀ (s : State) (n m : Nat), s.timer.enabled = true → 0 < s.timer.counter - n →
    (s.tick n).tick m = s.tick (n + m)

/-- A store to a bus address of the timer's hook is a register write of the timer, and no RAM cell changes (60 R243):
the stores and the read-modify-writes in every form whose operand resolves to that address, each with the byte it stores
and the devices as its reads leave them. The hook's place and its write handler are choices (92 D2, log 10). -/
def Obligations.StoresToTheTimerHookWriteItsRegister : Prop :=
  ∀ (s : State) (h : Hook) (o : Operand) (w : Word) (k : Fin 8) (v c : Nat), configWf s.cfg = true → h ∈ s.cfg.hooks →
    h.device = .timer → (s.resolve o).1.loc = .mem w → w.toNat = h.start + k.val →
    v = (s.operandValue o).toNat → c = (s.flag .c).toNat →
    (∀ store ∈ [(Instr.sta o, s.a), (.stx o, s.x), (.sty o, s.y)], store.1.wf = true →
      ∃ t, exec store.1 s = .next t ∧
        t.timer = s.timer.writeRegister s.cfg.timerRegLo s.cfg.timerRegHi k store.2 ∧
        t.ram = s.ram ∧ t.io = (s.resolve o).2.io) ∧
    (∀ modify ∈ [(Instr.inc o, v + 1), (.dec o, v + 255), (.asl o, v * 2), (.lsr o, v / 2), (.rol o, v * 2 + c),
        (.ror o, v / 2 + 128 * c)], modify.1.wf = true →
      ∃ t, exec modify.1 s = .next t ∧
        t.timer = s.timer.writeRegister s.cfg.timerRegLo s.cfg.timerRegHi k (BitVec.ofNat 8 modify.2) ∧
        t.ram = s.ram ∧ t.io = (s.afterLoad o).io)

/-! ### Reset (70_reset_and_hazards.md, 10_state.md) -/

/-- `reset()` (70 R270): `PC` from the vector at 0xFFFC, `S`, `P`, the counter and the requests; nothing else. -/
def Obligations.ResetLoadsTheVector : Prop :=
  ∀ (s : State) (lo hi : Byte × State), lo = s.busRead 0xFFFC → hi = lo.2.busRead 0xFFFD →
    s.doReset = { s with
      pc := BitVec.ofNat 16 (lo.1.toNat + 256 * hi.1.toNat), sp := 0xFD, p := 0x24, cycleCounter := 0
      pendingNMI := false, pendingIRQ := false, running := true, io := hi.2.io }

/-- `State.reset` is what `reset()` leaves from power-on with zeroed RAM and the default configuration, whatever
the other registers held. The model's choices: the default configuration (log 3), zero RAM (log 4), `A`, `X`, `Y` = 0
(log 5). -/
def Obligations.ResetStateComesFromPowerOn : Prop :=
  ∀ (sp p : Byte) (pc : Word) (cycles : Nat) (nmi irq : Bool),
    (State.powerOn Config.default [] 0 0 0 sp p pc cycles nmi irq).doReset = State.reset

/-! ### The step (40 R90, R91; 60 R250) -/

/-- A step runs the instruction that the bytes at `PC` decode to: fetch its bytes, `exec` it with `PC` past them,
then tick the timer with the cycles it took (40 R90, R91; 60 R250). -/
def Obligations.StepRunsTheDecodedInstruction : Prop :=
  ∀ (s : State) (n : Nat) (i : Instr), Ready s → decode (s.fetchBytes n).1 = .instr i [] →
    step s = tickAfter s.cycleCounter (exec i (s.fetchBytes n).2) ∧
    (s.fetchBytes n).2 = { s with pc := s.pc + BitVec.ofNat 16 n, io := (s.fetchBytes n).2.io }

/-- One system step is a CPU step followed by one tick with its cycle delta (60 R250); the other calls of the
environment are the operations of their names. -/
def Obligations.StepServesTheListedCall : Prop :=
  ∀ (s : State) (later : List Input), configWf s.cfg = true →
    (∀ t, s.inputs = [] → s.cpuStep = .next t → step s = .next (t.tick (t.cycleCounter - s.cycleCounter))) ∧
    (∀ t, s.inputs = .system :: later → State.cpuStep { s with inputs := later } = .next t →
      step s = .next (t.tick (t.cycleCounter - s.cycleCounter))) ∧
    (s.inputs = .step :: later → step s = State.cpuStep { s with inputs := later }) ∧
    (∀ n, s.inputs = .tick n :: later → step s = .next (State.tick { s with inputs := later } n)) ∧
    (s.inputs = .nmi :: later → step s = .next { s with inputs := later, pendingNMI := true }) ∧
    (s.inputs = .irq :: later → step s = .next (State.irq { s with inputs := later })) ∧
    (s.inputs = .reset :: later → step s = .next (State.doReset { s with inputs := later }))

/-- The model's refusals, all of them and nothing else: a term that no opcode encodes (log 22); a step under an
ill-formed configuration (log 10); a CPU step, listed or not, before the first `reset()` (log 14). These are the model's
choices. -/
def Obligations.RefusalsAreNamed : Prop :=
  (∀ (i : Instr) (s : State) (r : Refusal), exec i s = .refused r ↔ i.wf = false ∧ r = .noSuchForm i) ∧
  ∀ (s : State) (r : Refusal), step s = .refused r ↔
    (configWf s.cfg = false ∧ r = .illFormedConfiguration) ∨
    (configWf s.cfg = true ∧ s.running = false ∧ s.inputs.head? ∈ [none, some .system, some .step] ∧ r = .beforeReset)

/-- The invariant holds after reset. -/
def Obligations.ResetSatisfiesTheInvariant : Prop :=
  Inv State.reset

/-- Every step keeps the invariant: a legal status, RAM in canonical form, the counter in its range. -/
def Obligations.EveryStepKeepsTheInvariant : Prop :=
  ∀ s t : State, Inv s → step s = .next t → Inv t

/-- Under the invariant no step stops: no fault, no refusal, whatever the bytes at `PC` (60 R230). -/
def Obligations.NoStepStops : Prop :=
  ∀ s : State, Inv s → ∃ t, step s = .next t

/-- No step changes the configuration, disarms the timer, or changes a RAM cell that a write handler or a ROM window
covers (10 R21, R22; 20 R42). -/
def Obligations.StepKeepsConfigurationAndShieldedRam : Prop :=
  ∀ s t : State, step s = .next t →
    t.cfg = s.cfg ∧ (s.timer.enabled = true → t.timer.enabled = true) ∧
    ∀ a, ((∃ h ∈ s.cfg.hooks, hookCovers h a = true ∧ h.hasWrite = true) ∨
        (∃ w ∈ s.cfg.romWindows, romCovers w a = true)) → t.cell a = s.cell a

/-- Every CPU step takes at least 2 cycles (60 R250). -/
def Obligations.EveryCpuStepTakesTwoCycles : Prop :=
  ∀ s t : State, configWf s.cfg = true → s.cpuStep = .next t → s.cycleCounter + 2 ≤ t.cycleCounter
end

