-- ==== Sys2Proof/Laws/Memory.lean ====
section
/-! SUPPORT. The canonical form of RAM: every write keeps it. -/

namespace Sys2Proof.Machine

@[simp] theorem Memory.read_nil (a : Nat) : Memory.read [] a = ramInit := rfl

theorem Memory.read_cons (b : Nat) (w : Byte) (m : Memory) (a : Nat) :
    Memory.read ((b, w) :: m) a = if b = a then w else Memory.read m a := rfl

theorem Memory.wf_nil : Memory.wf [] = true := rfl

/-- The canonical form cell by cell. -/
theorem Memory.wfFrom_cons {lo b : Nat} {w : Byte} {m : Memory} :
    Memory.wfFrom lo ((b, w) :: m) = true ↔
      lo ≤ b ∧ b < 65536 ∧ w ≠ ramInit ∧ Memory.wfFrom (b + 1) m = true := by
  simp [Memory.wfFrom, and_assoc]

/-- A form from `lo` is one from any lower address. -/
theorem Memory.wfFrom_mono {lo lo' : Nat} {m : Memory} (h : Memory.wfFrom lo m = true) (hle : lo' ≤ lo) :
    Memory.wfFrom lo' m = true := by
  cases m with
  | nil => rfl
  | cons c m =>
    obtain ⟨b, w⟩ := c
    rw [Memory.wfFrom_cons] at h ⊢
    exact ⟨by omega, h.2⟩

/-- Nothing is listed below where the form starts. -/
theorem Memory.read_below {lo a : Nat} {m : Memory} (h : Memory.wfFrom lo m = true) (ha : a < lo) :
    Memory.read m a = ramInit := by
  induction m generalizing lo with
  | nil => rfl
  | cons c m ih =>
    obtain ⟨b, w⟩ := c
    rw [Memory.wfFrom_cons] at h
    rw [Memory.read_cons, if_neg (by omega), ih h.2.2.2 (by omega)]

/-- A cell put in front of a form that starts above it keeps the form. -/
theorem Memory.wfFrom_put {lo a : Nat} {v : Byte} {m : Memory} (h : Memory.wfFrom (a + 1) m = true) (hlo : lo ≤ a)
    (ha : a < 65536) : Memory.wfFrom lo (Memory.put a v m) = true := by
  unfold Memory.put
  split
  · exact Memory.wfFrom_mono h (by omega)
  · rw [Memory.wfFrom_cons]; exact ⟨hlo, ha, ‹_›, h⟩

theorem Memory.wfFrom_write {lo a : Nat} {v : Byte} {m : Memory} (h : Memory.wfFrom lo m = true) (hlo : lo ≤ a)
    (ha : a < 65536) : Memory.wfFrom lo (Memory.write m a v) = true := by
  induction m generalizing lo with
  | nil => exact Memory.wfFrom_put rfl hlo ha
  | cons c m ih =>
    obtain ⟨b, w⟩ := c
    have hc := Memory.wfFrom_cons.mp h
    unfold Memory.write
    split
    · exact Memory.wfFrom_put (Memory.wfFrom_cons.mpr ⟨by omega, hc.2⟩) hlo ha
    · split
      · exact Memory.wfFrom_put (by subst a; exact hc.2.2.2) hlo ha
      · rw [Memory.wfFrom_cons]; exact ⟨hc.1, hc.2.1, hc.2.2.1, ih hc.2.2.2 (by omega)⟩

/-- Every write keeps the canonical form (10 R20). -/
theorem Memory.write_wf {m : Memory} {a : Nat} {v : Byte} (h : Memory.wf m = true) (ha : a < 65536) :
    Memory.wf (Memory.write m a v) = true :=
  Memory.wfFrom_write h (Nat.zero_le a) ha

theorem Memory.read_put (a : Nat) (v : Byte) (m : Memory) (x : Nat) (hm : Memory.read m a = ramInit) :
    Memory.read (Memory.put a v m) x = if a = x then v else Memory.read m x := by
  unfold Memory.put
  split
  · split
    · subst x; simp_all
    · rfl
  · rfl

/-- A write leaves every other cell alone, whatever the list is. -/
theorem Memory.read_write_ne (m : Memory) (a : Nat) (v : Byte) (x : Nat) (h : x ≠ a) :
    Memory.read (Memory.write m a v) x = Memory.read m x := by
  have put : ∀ m : Memory, Memory.read (Memory.put a v m) x = Memory.read m x := by
    intro m
    unfold Memory.put
    split
    · rfl
    · rw [Memory.read_cons, if_neg (Ne.symm h)]
  induction m with
  | nil => exact put []
  | cons c m ih =>
    obtain ⟨b, w⟩ := c
    unfold Memory.write
    split
    · exact put _
    · split
      · subst a; rw [put, Memory.read_cons, if_neg (Ne.symm h)]
      · simp only [Memory.read_cons, ih]

end Sys2Proof.Machine
end

