-- ==== Sys2Proof/Laws/Bus.lean ====
section
/-! SUPPORT. What a bus access can change (20 R41, R42): a read, the record of the external devices; a write, one
RAM cell or the device that takes it. -/

namespace Sys2Proof.Machine

/-! ### Reads -/

theorem State.deviceRead_shape (d : Device) (a : Word) (s : State) :
    (s.deviceRead d a).2 = { s with io := (s.deviceRead d a).2.io } := by
  cases d <;> rfl

theorem State.hookRead_shape (a : Word) (hs : List Hook) (s : State) :
    (State.hookRead a hs s).2 = { s with io := (State.hookRead a hs s).2.io } := by
  induction hs generalizing s with
  | nil => rfl
  | cons h hs ih =>
    have hd := s.deviceRead_shape h.device a
    by_cases hc : hookCovers h a && h.hasRead
    · cases hv : (s.deviceRead h.device a).1 with
      | some v => simpa [State.hookRead, hc, hv] using hd
      | none =>
        have := ih (s.deviceRead h.device a).2
        simp only [State.hookRead, hc, hv, if_true]
        rw [this, hd]
    · simpa [State.hookRead, hc] using ih s

/-- A bus read changes nothing but the record of the external devices. -/
theorem State.busRead_shape (s : State) (a : Word) :
    (s.busRead a).2 = { s with io := (s.busRead a).2.io } :=
  State.hookRead_shape a s.cfg.hooks s

@[simp] theorem State.busRead_a (s : State) (a : Word) : (s.busRead a).2.a = s.a := by rw [s.busRead_shape a]
@[simp] theorem State.busRead_x (s : State) (a : Word) : (s.busRead a).2.x = s.x := by rw [s.busRead_shape a]
@[simp] theorem State.busRead_y (s : State) (a : Word) : (s.busRead a).2.y = s.y := by rw [s.busRead_shape a]
@[simp] theorem State.busRead_sp (s : State) (a : Word) : (s.busRead a).2.sp = s.sp := by rw [s.busRead_shape a]
@[simp] theorem State.busRead_p (s : State) (a : Word) : (s.busRead a).2.p = s.p := by rw [s.busRead_shape a]
@[simp] theorem State.busRead_pc (s : State) (a : Word) : (s.busRead a).2.pc = s.pc := by rw [s.busRead_shape a]
@[simp] theorem State.busRead_cycleCounter (s : State) (a : Word) : (s.busRead a).2.cycleCounter = s.cycleCounter := by rw [s.busRead_shape a]
@[simp] theorem State.busRead_pendingNMI (s : State) (a : Word) : (s.busRead a).2.pendingNMI = s.pendingNMI := by rw [s.busRead_shape a]
@[simp] theorem State.busRead_pendingIRQ (s : State) (a : Word) : (s.busRead a).2.pendingIRQ = s.pendingIRQ := by rw [s.busRead_shape a]
@[simp] theorem State.busRead_running (s : State) (a : Word) : (s.busRead a).2.running = s.running := by rw [s.busRead_shape a]
@[simp] theorem State.busRead_ram (s : State) (a : Word) : (s.busRead a).2.ram = s.ram := by rw [s.busRead_shape a]
@[simp] theorem State.busRead_timer (s : State) (a : Word) : (s.busRead a).2.timer = s.timer := by rw [s.busRead_shape a]
@[simp] theorem State.busRead_cfg (s : State) (a : Word) : (s.busRead a).2.cfg = s.cfg := by rw [s.busRead_shape a]
@[simp] theorem State.busRead_inputs (s : State) (a : Word) : (s.busRead a).2.inputs = s.inputs := by rw [s.busRead_shape a]

@[simp] theorem State.busRead_cell (s : State) (a b : Word) : (s.busRead a).2.cell b = s.cell b := by
  simp [State.cell]

theorem State.hookRead_congr (a : Word) (hs : List Hook) {s t : State} (h : t.io = s.io) :
    (State.hookRead a hs t).1 = (State.hookRead a hs s).1 ∧
      (State.hookRead a hs t).2.io = (State.hookRead a hs s).2.io := by
  induction hs generalizing s t with
  | nil => exact ⟨rfl, h⟩
  | cons k hs ih =>
    have hv : (t.deviceRead k.device a).1 = (s.deviceRead k.device a).1 ∧
        (t.deviceRead k.device a).2.io = (s.deviceRead k.device a).2.io := by
      cases k.device <;> simp [State.deviceRead, State.takeAnswer, h]
    by_cases hc : hookCovers k a && k.hasRead
    · cases hr : (s.deviceRead k.device a).1 with
      | some v => simp [State.hookRead, hc, hv.1, hr, hv.2]
      | none => simpa [State.hookRead, hc, hv.1, hr] using ih hv.2
    · simpa [State.hookRead, hc] using ih h

/-- A bus read depends on the configuration, RAM and the record of the devices alone. -/
theorem State.busRead_congr {s t : State} (hc : t.cfg = s.cfg) (hr : t.ram = s.ram) (hi : t.io = s.io) (a : Word) :
    (t.busRead a).1 = (s.busRead a).1 ∧ (t.busRead a).2.io = (s.busRead a).2.io := by
  have h := State.hookRead_congr a s.cfg.hooks hi
  have h1 := State.hookRead_shape a s.cfg.hooks s
  have h2 := State.hookRead_shape a s.cfg.hooks t
  refine ⟨?_, by simpa [State.busRead, hc] using h.2⟩
  simp only [State.busRead, hc]
  rw [h.1, h1, h2]
  simp [State.underHooks, State.cell, hc, hr]

/-- Where no external device answers reads, a read is ROM over RAM and changes nothing (20 R41, R43). -/
theorem State.hookRead_silent (a : Word) (hs : List Hook) (s : State)
    (h : ∀ k ∈ hs, hookCovers k a = true → k.hasRead = true → k.device = .timer) :
    State.hookRead a hs s = (none, s) := by
  induction hs with
  | nil => rfl
  | cons k hs ih =>
    have ih := ih fun g hg => h g (List.mem_cons_of_mem _ hg)
    by_cases hc : hookCovers k a = true ∧ k.hasRead = true
    · have := h k List.mem_cons_self hc.1 hc.2
      simp [State.hookRead, hc.1, hc.2, this, State.deviceRead, ih]
    · have : (hookCovers k a && k.hasRead) = false := by
        simpa using hc
      simp [State.hookRead, this, ih]

theorem State.busRead_silent (a : Word) (s : State)
    (h : ∀ k ∈ s.cfg.hooks, hookCovers k a = true → k.hasRead = true → k.device = .timer) :
    s.busRead a = (s.underHooks a, s) := by
  simp [State.busRead, State.hookRead_silent a _ s h]

/-! ### Writes -/

theorem State.deviceWrite_shape (h : Hook) (a : Word) (v : Byte) (s : State) :
    s.deviceWrite h a v =
      { s with timer := (s.deviceWrite h a v).timer, io := (s.deviceWrite h a v).io } := by
  unfold State.deviceWrite; cases h.device <;> rfl

/-- A bus write changes nothing but RAM, the timer and the record of the external devices. -/
theorem State.busWrite_shape (s : State) (a : Word) (v : Byte) :
    s.busWrite a v =
      { s with
        ram := (s.busWrite a v).ram, timer := (s.busWrite a v).timer, io := (s.busWrite a v).io } := by
  unfold State.busWrite
  split
  · next h _ => rw [s.deviceWrite_shape h a v]
  · split <;> rfl

@[simp] theorem State.busWrite_a (s : State) (a : Word) (v : Byte) : (s.busWrite a v).a = s.a := by rw [s.busWrite_shape a v]
@[simp] theorem State.busWrite_x (s : State) (a : Word) (v : Byte) : (s.busWrite a v).x = s.x := by rw [s.busWrite_shape a v]
@[simp] theorem State.busWrite_y (s : State) (a : Word) (v : Byte) : (s.busWrite a v).y = s.y := by rw [s.busWrite_shape a v]
@[simp] theorem State.busWrite_sp (s : State) (a : Word) (v : Byte) : (s.busWrite a v).sp = s.sp := by rw [s.busWrite_shape a v]
@[simp] theorem State.busWrite_p (s : State) (a : Word) (v : Byte) : (s.busWrite a v).p = s.p := by rw [s.busWrite_shape a v]
@[simp] theorem State.busWrite_pc (s : State) (a : Word) (v : Byte) : (s.busWrite a v).pc = s.pc := by rw [s.busWrite_shape a v]
@[simp] theorem State.busWrite_cycleCounter (s : State) (a : Word) (v : Byte) : (s.busWrite a v).cycleCounter = s.cycleCounter := by rw [s.busWrite_shape a v]
@[simp] theorem State.busWrite_pendingNMI (s : State) (a : Word) (v : Byte) : (s.busWrite a v).pendingNMI = s.pendingNMI := by rw [s.busWrite_shape a v]
@[simp] theorem State.busWrite_pendingIRQ (s : State) (a : Word) (v : Byte) : (s.busWrite a v).pendingIRQ = s.pendingIRQ := by rw [s.busWrite_shape a v]
@[simp] theorem State.busWrite_running (s : State) (a : Word) (v : Byte) : (s.busWrite a v).running = s.running := by rw [s.busWrite_shape a v]
@[simp] theorem State.busWrite_cfg (s : State) (a : Word) (v : Byte) : (s.busWrite a v).cfg = s.cfg := by rw [s.busWrite_shape a v]
@[simp] theorem State.busWrite_inputs (s : State) (a : Word) (v : Byte) : (s.busWrite a v).inputs = s.inputs := by rw [s.busWrite_shape a v]

/-- What a bus write does to RAM: nothing, or the one cell. -/
theorem State.busWrite_ram (s : State) (a : Word) (v : Byte) :
    (s.busWrite a v).ram = s.ram ∨ (s.busWrite a v).ram = Memory.write s.ram a.toNat v := by
  unfold State.busWrite
  split
  · next h _ => rw [s.deviceWrite_shape h a v]; exact .inl rfl
  · split
    · exact .inl rfl
    · exact .inr rfl

/-- A bus write leaves every other cell alone. -/
theorem State.busWrite_cell_ne (s : State) (a b : Word) (v : Byte) (h : b ≠ a) : (s.busWrite a v).cell b = s.cell b := by
  simp only [State.cell]
  rcases s.busWrite_ram a v with hr | hr <;> rw [hr]
  exact Memory.read_write_ne _ _ _ _ fun e => h (BitVec.eq_of_toNat_eq e)

/-- A bus write does not read the registers of the CPU. -/
theorem State.busWrite_setSP (s : State) (sp : Byte) (a : Word) (v : Byte) :
    State.busWrite { s with sp := sp } a v = { s.busWrite a v with sp := sp } := by
  unfold State.busWrite
  cases s.cfg.hooks.find? (fun h => hookCovers h a && h.hasWrite) with
  | some h => simp only [State.deviceWrite]; cases h.device <;> rfl
  | none => simp only; split <;> rfl

/-- A bus write keeps the canonical form of RAM. -/
theorem State.busWrite_wf {s : State} {a : Word} {v : Byte} (h : Memory.wf s.ram = true) :
    Memory.wf (s.busWrite a v).ram = true := by
  rcases s.busWrite_ram a v with hr | hr <;> rw [hr]
  · exact h
  · exact Memory.write_wf h a.isLt

/-- The timer's registers after a write: a register write keeps the counter in its range (10 R22). -/
theorem Timer.writeRegister_range {t : Timer} {lo hi i : Fin 8} {v : Byte}
    (h : 0 ≤ t.counter ∧ t.counter ≤ 0x10000) :
    0 ≤ (t.writeRegister lo hi i v).counter ∧ (t.writeRegister lo hi i v).counter ≤ 0x10000 := by
  unfold Timer.writeRegister
  split
  · exact h
  · split
    · have := (littleEndian (lowByte t.latch) v).isLt
      simp only
      omega
    · exact h

theorem State.busWrite_timer (s : State) (a : Word) (v : Byte) :
    (s.busWrite a v).timer = s.timer ∨
      ∃ i, (s.busWrite a v).timer = s.timer.writeRegister s.cfg.timerRegLo s.cfg.timerRegHi i v := by
  unfold State.busWrite
  split
  · next h _ =>
    unfold State.deviceWrite
    cases h.device with
    | timer => exact .inr ⟨_, rfl⟩
    | external id => exact .inl rfl
  · split <;> exact .inl rfl

end Sys2Proof.Machine
end

