-- ==== Sys2Proof/Laws/Decode.lean ====
section
/-! SUPPORT. The opcode table of 30 R74: each row is found by its opcode and by its form, and the operand of a
mode is read back from its bytes. -/

namespace Sys2Proof

/-- Every row is the one its opcode byte and its form look up: no two rows share either. -/
theorem opcodeTable_unique :
    ∀ r ∈ opcodeTable, lookupOpcode r.opcode = some r ∧ lookupForm r.mnemonic r.mode = some r := by
  decide +kernel

theorem lookupOpcode_mem {op : Byte} {r : Row} (h : lookupOpcode op = some r) : r ∈ opcodeTable ∧ r.opcode = op :=
  ⟨List.mem_of_find?_eq_some h, by simpa using List.find?_some h⟩

theorem lookupForm_mem {m : Mnemonic} {d : Mode} {r : Row} (h : lookupForm m d = some r) :
    r ∈ opcodeTable ∧ r.mnemonic = m ∧ r.mode = d := by
  have := List.find?_some h
  simp at this
  exact ⟨List.mem_of_find?_eq_some h, this⟩

/-- The two lookups are inverse to each other. -/
theorem lookupOpcode_of_form {m : Mnemonic} {d : Mode} {r : Row} (h : lookupForm m d = some r) :
    lookupOpcode r.opcode = some r :=
  (opcodeTable_unique r (lookupForm_mem h).1).1

theorem lookupForm_of_opcode {op : Byte} {r : Row} (h : lookupOpcode op = some r) :
    lookupForm r.mnemonic r.mode = some r :=
  (opcodeTable_unique r (lookupOpcode_mem h).1).2

/-! ### Bytes of 16-bit values -/

theorem toNat_littleEndian (lo hi : Byte) : (littleEndian lo hi).toNat = lo.toNat + 256 * hi.toNat := by
  simp only [littleEndian, BitVec.toNat_append]
  rw [← Nat.shiftLeft_add_eq_or_of_lt lo.isLt, Nat.shiftLeft_eq]
  omega

theorem toNat_lowByte (w : Word) : (lowByte w).toNat = w.toNat % 256 := by
  simp [lowByte]

theorem toNat_highByte (w : Word) : (highByte w).toNat = w.toNat / 256 := by
  have := w.isLt
  simp [highByte, Nat.shiftRight_eq_div_pow]
  omega

@[simp] theorem lowByte_littleEndian (lo hi : Byte) : lowByte (littleEndian lo hi) = lo := by
  apply BitVec.eq_of_toNat_eq
  have := lo.isLt
  rw [toNat_lowByte, toNat_littleEndian]
  omega

@[simp] theorem highByte_littleEndian (lo hi : Byte) : highByte (littleEndian lo hi) = hi := by
  apply BitVec.eq_of_toNat_eq
  have := lo.isLt
  rw [toNat_highByte, toNat_littleEndian]
  omega

@[simp] theorem littleEndian_bytes (w : Word) : littleEndian (lowByte w) (highByte w) = w := by
  apply BitVec.eq_of_toNat_eq
  rw [toNat_littleEndian, toNat_lowByte, toNat_highByte]
  omega

/-! ### The forms of the rules and the rows of the table -/

/-- The 256 bytes. -/
def allBytes : List Byte :=
  (List.range 256).map (BitVec.ofNat 8)

theorem mem_allBytes (b : Byte) : b ∈ allBytes := by
  simp only [allBytes, List.mem_map, List.mem_range]
  exact ⟨b.toNat, b.isLt, by simp⟩

/-- The unofficial bytes are those without a row (30 R75). -/
theorem contains_unofficialBytes (op : Byte) : unofficialBytes.contains op = (lookupOpcode op).isNone := by
  have h : ∀ op ∈ allBytes, unofficialBytes.contains op = (lookupOpcode op).isNone := by decide +kernel
  exact h op (mem_allBytes op)

/-- The modes. -/
def allModes : List Mode :=
  [.imp, .acc, .imm, .zp, .zpX, .zpY, .abs, .absX, .absY, .ind, .indX, .indY, .rel]

theorem mem_allModes (d : Mode) : d ∈ allModes := by
  cases d <;> decide

/-- A mnemonic's rule lists exactly the modes the table gives it. -/
theorem contains_modes (m : Mnemonic) (hm : m ≠ .unofficialNop) (d : Mode) :
    m.modes.contains d = (lookupForm m d).isSome := by
  have h : ∀ d ∈ allModes, m.modes.contains d = (lookupForm m d).isSome := by
    revert hm
    cases m <;> first | (intro h; exact absurd rfl h) | (intro _; decide +kernel)
  exact h d (mem_allModes d)

/-- What a mnemonic builds has that mnemonic and that operand. -/
theorem build_inv {m : Mnemonic} {o : Option Operand} {i : Instr} (h : m.build o = some i) :
    i.mnemonic = m ∧ i.operand = o ∧ i.fallbackByte = none := by
  cases m <;> cases o <;> cases h <;> exact ⟨rfl, rfl, rfl⟩

/-- Whether a mnemonic builds depends on whether there is an operand, not on its value. -/
theorem build_isSome (m : Mnemonic) (o o' : Operand) : (m.build (some o)).isSome = (m.build (some o')).isSome := by
  cases m <;> rfl

/-- Every row of the table builds an instruction from any operand bytes. -/
theorem row_builds {r : Row} (h : r ∈ opcodeTable) (b1 b2 : Byte) :
    ∃ i, r.mnemonic.build (r.mode.operand b1 b2) = some i := by
  have h0 : ∀ r ∈ opcodeTable, (r.mnemonic.build (r.mode.operand 0 0)).isSome = true := by decide +kernel
  have := h0 r h
  apply Option.isSome_iff_exists.mp
  rw [← this]
  cases r.mode <;> first | rfl | exact build_isSome _ _ _

/-- The operand of an instruction is read back from its operand bytes, which are as many as its mode takes. -/
theorem operand_of_bytes (i : Instr) :
    i.operandBytes.length = i.mode.operandBytes ∧
      i.mode.operand (i.operandBytes.headD 0) (i.operandBytes.tail.headD 0) = i.operand := by
  unfold Instr.mode Instr.operandBytes
  cases i.operand with
  | none => exact ⟨rfl, rfl⟩
  | some o => cases o <;> simp [Mode.operandBytes, Mode.operand, Operand.mode, Operand.bytes]

/-- A carrier of an opcode byte is the fallback no-op of that byte. -/
theorem eq_of_fallbackByte {i : Instr} {op : Byte} (h : i.fallbackByte = some op) : i = .unofficialNop op := by
  cases i <;> cases h
  rfl

theorem mnemonic_of_fallbackByte {i : Instr} (h : i.fallbackByte = none) : i.mnemonic ≠ .unofficialNop := by
  intro hm
  cases i <;> cases hm
  cases h

end Sys2Proof
end

