-- ==== Sys2Proof/Laws/Flags.lean ====
section
/-! SUPPORT. What the flag writes do to each flag (10 R14). -/

namespace Sys2Proof.Machine

/-- A flag write sets its flag, forces `P.U` and leaves the others (10 R14). -/
@[simp] theorem getFlag_putFlag (f g : Flag) (b : Bool) (p : Byte) :
    getFlag g (putFlag f b p) = if g = .u then true else if g = f then b else getFlag g p := by
  cases f <;> cases g <;> cases b <;>
    simp [getFlag, putFlag, forceU, flagMask, Flag.bit]

/-- `setNZ` writes `N` and `Z` and forces `P.U` (40 R108). -/
@[simp] theorem getFlag_putNZ (g : Flag) (v p : Byte) :
    getFlag g (putNZ v p) =
      if g = .u then true else if g = .n then v.msb else if g = .z then v == 0 else getFlag g p := by
  cases g <;> simp [putNZ]

@[simp] theorem getFlag_putSum (g : Flag) (r : Sum) (p : Byte) :
    getFlag g (putSum r p) =
      if g = .u then true else if g = .n then r.result.msb else if g = .z then r.result == 0
      else if g = .v then r.overflow else if g = .c then r.carry else getFlag g p := by
  cases g <;> simp [putSum]

@[simp] theorem getFlag_putCompare (g : Flag) (reg v p : Byte) :
    getFlag g (putCompare reg v p) =
      if g = .u then true else if g = .n then (reg - v).msb else if g = .z then reg - v == 0
      else if g = .c then decide (v.toNat ≤ reg.toNat) else getFlag g p := by
  cases g <;> simp [putCompare]

@[simp] theorem getFlag_putBit (g : Flag) (a v p : Byte) :
    getFlag g (putBit a v p) =
      if g = .u then true else if g = .n then v.getLsbD 7 else if g = .z then (a &&& v) == 0
      else if g = .v then v.getLsbD 6 else getFlag g p := by
  cases g <;> simp [putBit]

@[simp] theorem getFlag_putShift (g : Flag) (r : Shifted) (p : Byte) :
    getFlag g (putShift r p) =
      if g = .u then true else if g = .n then r.result.msb else if g = .z then r.result == 0
      else if g = .c then r.carry else getFlag g p := by
  cases g <;> simp [putShift]

/-- A pulled status has Break clear, bit 5 set and its other flags from the byte (45 R203, R213). -/
@[simp] theorem getFlag_statusPulled (g : Flag) (v : Byte) :
    getFlag g (statusPulled v) = if g = .u then true else if g = .b then false else getFlag g v := by
  cases g <;> simp [getFlag, statusPulled, Flag.bit]

@[simp] theorem getFlag_statusWithBreak (g : Flag) (p : Byte) :
    getFlag g (statusWithBreak p) = if g = .u ∨ g = .b then true else getFlag g p := by
  cases g <;> simp [getFlag, statusWithBreak, Flag.bit]

@[simp] theorem getFlag_statusWithoutBreak (g : Flag) (p : Byte) :
    getFlag g (statusWithoutBreak p) = if g = .u then true else if g = .b then false else getFlag g p := by
  cases g <;> simp [getFlag, statusWithoutBreak, Flag.bit]

/-- A status is legal (`P & 0x30 = 0x20`, 10 R14) when Break is 0 and bit 5 is 1. -/
theorem legalStatus_iff (p : Byte) : p &&& 0x30 = 0x20 ↔ getFlag .b p = false ∧ getFlag .u p = true := by
  revert p; decide

/-- Writing any flag but Break keeps the status legal. -/
theorem putFlag_legal {f : Flag} {b : Bool} {p : Byte} (h : p &&& 0x30 = 0x20) (hf : f ≠ .b) :
    putFlag f b p &&& 0x30 = 0x20 := by
  rw [legalStatus_iff] at h ⊢
  simp [h, hf.symm]

theorem putNZ_legal {v p : Byte} (h : p &&& 0x30 = 0x20) : putNZ v p &&& 0x30 = 0x20 :=
  putFlag_legal (putFlag_legal h (by decide)) (by decide)

theorem statusPulled_legal (v : Byte) : statusPulled v &&& 0x30 = 0x20 := by
  rw [legalStatus_iff]; simp

end Sys2Proof.Machine
end

