-- ==== Sys2Proof/Laws/State.lean ====
section
/-! SUPPORT. One lemma per field of State and named update, so that no proof unfolds a record update. -/

namespace Sys2Proof.Machine

variable (s : State)

/-! ### `setA` -/

@[simp] theorem State.setA_a (v : Byte) : (s.setA v).a = v := rfl
@[simp] theorem State.setA_x (v : Byte) : (s.setA v).x = s.x := rfl
@[simp] theorem State.setA_y (v : Byte) : (s.setA v).y = s.y := rfl
@[simp] theorem State.setA_sp (v : Byte) : (s.setA v).sp = s.sp := rfl
@[simp] theorem State.setA_p (v : Byte) : (s.setA v).p = s.p := rfl
@[simp] theorem State.setA_pc (v : Byte) : (s.setA v).pc = s.pc := rfl
@[simp] theorem State.setA_cycleCounter (v : Byte) : (s.setA v).cycleCounter = s.cycleCounter := rfl
@[simp] theorem State.setA_pendingNMI (v : Byte) : (s.setA v).pendingNMI = s.pendingNMI := rfl
@[simp] theorem State.setA_pendingIRQ (v : Byte) : (s.setA v).pendingIRQ = s.pendingIRQ := rfl
@[simp] theorem State.setA_running (v : Byte) : (s.setA v).running = s.running := rfl
@[simp] theorem State.setA_ram (v : Byte) : (s.setA v).ram = s.ram := rfl
@[simp] theorem State.setA_timer (v : Byte) : (s.setA v).timer = s.timer := rfl
@[simp] theorem State.setA_cfg (v : Byte) : (s.setA v).cfg = s.cfg := rfl
@[simp] theorem State.setA_inputs (v : Byte) : (s.setA v).inputs = s.inputs := rfl
@[simp] theorem State.setA_io (v : Byte) : (s.setA v).io = s.io := rfl

/-! ### `setX` -/

@[simp] theorem State.setX_a (v : Byte) : (s.setX v).a = s.a := rfl
@[simp] theorem State.setX_x (v : Byte) : (s.setX v).x = v := rfl
@[simp] theorem State.setX_y (v : Byte) : (s.setX v).y = s.y := rfl
@[simp] theorem State.setX_sp (v : Byte) : (s.setX v).sp = s.sp := rfl
@[simp] theorem State.setX_p (v : Byte) : (s.setX v).p = s.p := rfl
@[simp] theorem State.setX_pc (v : Byte) : (s.setX v).pc = s.pc := rfl
@[simp] theorem State.setX_cycleCounter (v : Byte) : (s.setX v).cycleCounter = s.cycleCounter := rfl
@[simp] theorem State.setX_pendingNMI (v : Byte) : (s.setX v).pendingNMI = s.pendingNMI := rfl
@[simp] theorem State.setX_pendingIRQ (v : Byte) : (s.setX v).pendingIRQ = s.pendingIRQ := rfl
@[simp] theorem State.setX_running (v : Byte) : (s.setX v).running = s.running := rfl
@[simp] theorem State.setX_ram (v : Byte) : (s.setX v).ram = s.ram := rfl
@[simp] theorem State.setX_timer (v : Byte) : (s.setX v).timer = s.timer := rfl
@[simp] theorem State.setX_cfg (v : Byte) : (s.setX v).cfg = s.cfg := rfl
@[simp] theorem State.setX_inputs (v : Byte) : (s.setX v).inputs = s.inputs := rfl
@[simp] theorem State.setX_io (v : Byte) : (s.setX v).io = s.io := rfl

/-! ### `setY` -/

@[simp] theorem State.setY_a (v : Byte) : (s.setY v).a = s.a := rfl
@[simp] theorem State.setY_x (v : Byte) : (s.setY v).x = s.x := rfl
@[simp] theorem State.setY_y (v : Byte) : (s.setY v).y = v := rfl
@[simp] theorem State.setY_sp (v : Byte) : (s.setY v).sp = s.sp := rfl
@[simp] theorem State.setY_p (v : Byte) : (s.setY v).p = s.p := rfl
@[simp] theorem State.setY_pc (v : Byte) : (s.setY v).pc = s.pc := rfl
@[simp] theorem State.setY_cycleCounter (v : Byte) : (s.setY v).cycleCounter = s.cycleCounter := rfl
@[simp] theorem State.setY_pendingNMI (v : Byte) : (s.setY v).pendingNMI = s.pendingNMI := rfl
@[simp] theorem State.setY_pendingIRQ (v : Byte) : (s.setY v).pendingIRQ = s.pendingIRQ := rfl
@[simp] theorem State.setY_running (v : Byte) : (s.setY v).running = s.running := rfl
@[simp] theorem State.setY_ram (v : Byte) : (s.setY v).ram = s.ram := rfl
@[simp] theorem State.setY_timer (v : Byte) : (s.setY v).timer = s.timer := rfl
@[simp] theorem State.setY_cfg (v : Byte) : (s.setY v).cfg = s.cfg := rfl
@[simp] theorem State.setY_inputs (v : Byte) : (s.setY v).inputs = s.inputs := rfl
@[simp] theorem State.setY_io (v : Byte) : (s.setY v).io = s.io := rfl

/-! ### `setSP` -/

@[simp] theorem State.setSP_a (v : Byte) : (s.setSP v).a = s.a := rfl
@[simp] theorem State.setSP_x (v : Byte) : (s.setSP v).x = s.x := rfl
@[simp] theorem State.setSP_y (v : Byte) : (s.setSP v).y = s.y := rfl
@[simp] theorem State.setSP_sp (v : Byte) : (s.setSP v).sp = v := rfl
@[simp] theorem State.setSP_p (v : Byte) : (s.setSP v).p = s.p := rfl
@[simp] theorem State.setSP_pc (v : Byte) : (s.setSP v).pc = s.pc := rfl
@[simp] theorem State.setSP_cycleCounter (v : Byte) : (s.setSP v).cycleCounter = s.cycleCounter := rfl
@[simp] theorem State.setSP_pendingNMI (v : Byte) : (s.setSP v).pendingNMI = s.pendingNMI := rfl
@[simp] theorem State.setSP_pendingIRQ (v : Byte) : (s.setSP v).pendingIRQ = s.pendingIRQ := rfl
@[simp] theorem State.setSP_running (v : Byte) : (s.setSP v).running = s.running := rfl
@[simp] theorem State.setSP_ram (v : Byte) : (s.setSP v).ram = s.ram := rfl
@[simp] theorem State.setSP_timer (v : Byte) : (s.setSP v).timer = s.timer := rfl
@[simp] theorem State.setSP_cfg (v : Byte) : (s.setSP v).cfg = s.cfg := rfl
@[simp] theorem State.setSP_inputs (v : Byte) : (s.setSP v).inputs = s.inputs := rfl
@[simp] theorem State.setSP_io (v : Byte) : (s.setSP v).io = s.io := rfl

/-! ### `setP` -/

@[simp] theorem State.setP_a (v : Byte) : (s.setP v).a = s.a := rfl
@[simp] theorem State.setP_x (v : Byte) : (s.setP v).x = s.x := rfl
@[simp] theorem State.setP_y (v : Byte) : (s.setP v).y = s.y := rfl
@[simp] theorem State.setP_sp (v : Byte) : (s.setP v).sp = s.sp := rfl
@[simp] theorem State.setP_p (v : Byte) : (s.setP v).p = v := rfl
@[simp] theorem State.setP_pc (v : Byte) : (s.setP v).pc = s.pc := rfl
@[simp] theorem State.setP_cycleCounter (v : Byte) : (s.setP v).cycleCounter = s.cycleCounter := rfl
@[simp] theorem State.setP_pendingNMI (v : Byte) : (s.setP v).pendingNMI = s.pendingNMI := rfl
@[simp] theorem State.setP_pendingIRQ (v : Byte) : (s.setP v).pendingIRQ = s.pendingIRQ := rfl
@[simp] theorem State.setP_running (v : Byte) : (s.setP v).running = s.running := rfl
@[simp] theorem State.setP_ram (v : Byte) : (s.setP v).ram = s.ram := rfl
@[simp] theorem State.setP_timer (v : Byte) : (s.setP v).timer = s.timer := rfl
@[simp] theorem State.setP_cfg (v : Byte) : (s.setP v).cfg = s.cfg := rfl
@[simp] theorem State.setP_inputs (v : Byte) : (s.setP v).inputs = s.inputs := rfl
@[simp] theorem State.setP_io (v : Byte) : (s.setP v).io = s.io := rfl

/-! ### `setPC` -/

@[simp] theorem State.setPC_a (v : Word) : (s.setPC v).a = s.a := rfl
@[simp] theorem State.setPC_x (v : Word) : (s.setPC v).x = s.x := rfl
@[simp] theorem State.setPC_y (v : Word) : (s.setPC v).y = s.y := rfl
@[simp] theorem State.setPC_sp (v : Word) : (s.setPC v).sp = s.sp := rfl
@[simp] theorem State.setPC_p (v : Word) : (s.setPC v).p = s.p := rfl
@[simp] theorem State.setPC_pc (v : Word) : (s.setPC v).pc = v := rfl
@[simp] theorem State.setPC_cycleCounter (v : Word) : (s.setPC v).cycleCounter = s.cycleCounter := rfl
@[simp] theorem State.setPC_pendingNMI (v : Word) : (s.setPC v).pendingNMI = s.pendingNMI := rfl
@[simp] theorem State.setPC_pendingIRQ (v : Word) : (s.setPC v).pendingIRQ = s.pendingIRQ := rfl
@[simp] theorem State.setPC_running (v : Word) : (s.setPC v).running = s.running := rfl
@[simp] theorem State.setPC_ram (v : Word) : (s.setPC v).ram = s.ram := rfl
@[simp] theorem State.setPC_timer (v : Word) : (s.setPC v).timer = s.timer := rfl
@[simp] theorem State.setPC_cfg (v : Word) : (s.setPC v).cfg = s.cfg := rfl
@[simp] theorem State.setPC_inputs (v : Word) : (s.setPC v).inputs = s.inputs := rfl
@[simp] theorem State.setPC_io (v : Word) : (s.setPC v).io = s.io := rfl

/-! ### `addCycles` -/

@[simp] theorem State.addCycles_a (v : Nat) : (s.addCycles v).a = s.a := rfl
@[simp] theorem State.addCycles_x (v : Nat) : (s.addCycles v).x = s.x := rfl
@[simp] theorem State.addCycles_y (v : Nat) : (s.addCycles v).y = s.y := rfl
@[simp] theorem State.addCycles_sp (v : Nat) : (s.addCycles v).sp = s.sp := rfl
@[simp] theorem State.addCycles_p (v : Nat) : (s.addCycles v).p = s.p := rfl
@[simp] theorem State.addCycles_pc (v : Nat) : (s.addCycles v).pc = s.pc := rfl
@[simp] theorem State.addCycles_cycleCounter (v : Nat) : (s.addCycles v).cycleCounter = s.cycleCounter + v := rfl
@[simp] theorem State.addCycles_pendingNMI (v : Nat) : (s.addCycles v).pendingNMI = s.pendingNMI := rfl
@[simp] theorem State.addCycles_pendingIRQ (v : Nat) : (s.addCycles v).pendingIRQ = s.pendingIRQ := rfl
@[simp] theorem State.addCycles_running (v : Nat) : (s.addCycles v).running = s.running := rfl
@[simp] theorem State.addCycles_ram (v : Nat) : (s.addCycles v).ram = s.ram := rfl
@[simp] theorem State.addCycles_timer (v : Nat) : (s.addCycles v).timer = s.timer := rfl
@[simp] theorem State.addCycles_cfg (v : Nat) : (s.addCycles v).cfg = s.cfg := rfl
@[simp] theorem State.addCycles_inputs (v : Nat) : (s.addCycles v).inputs = s.inputs := rfl
@[simp] theorem State.addCycles_io (v : Nat) : (s.addCycles v).io = s.io := rfl

/-! ### `setPendingNMI` -/

@[simp] theorem State.setPendingNMI_a (v : Bool) : (s.setPendingNMI v).a = s.a := rfl
@[simp] theorem State.setPendingNMI_x (v : Bool) : (s.setPendingNMI v).x = s.x := rfl
@[simp] theorem State.setPendingNMI_y (v : Bool) : (s.setPendingNMI v).y = s.y := rfl
@[simp] theorem State.setPendingNMI_sp (v : Bool) : (s.setPendingNMI v).sp = s.sp := rfl
@[simp] theorem State.setPendingNMI_p (v : Bool) : (s.setPendingNMI v).p = s.p := rfl
@[simp] theorem State.setPendingNMI_pc (v : Bool) : (s.setPendingNMI v).pc = s.pc := rfl
@[simp] theorem State.setPendingNMI_cycleCounter (v : Bool) : (s.setPendingNMI v).cycleCounter = s.cycleCounter := rfl
@[simp] theorem State.setPendingNMI_pendingNMI (v : Bool) : (s.setPendingNMI v).pendingNMI = v := rfl
@[simp] theorem State.setPendingNMI_pendingIRQ (v : Bool) : (s.setPendingNMI v).pendingIRQ = s.pendingIRQ := rfl
@[simp] theorem State.setPendingNMI_running (v : Bool) : (s.setPendingNMI v).running = s.running := rfl
@[simp] theorem State.setPendingNMI_ram (v : Bool) : (s.setPendingNMI v).ram = s.ram := rfl
@[simp] theorem State.setPendingNMI_timer (v : Bool) : (s.setPendingNMI v).timer = s.timer := rfl
@[simp] theorem State.setPendingNMI_cfg (v : Bool) : (s.setPendingNMI v).cfg = s.cfg := rfl
@[simp] theorem State.setPendingNMI_inputs (v : Bool) : (s.setPendingNMI v).inputs = s.inputs := rfl
@[simp] theorem State.setPendingNMI_io (v : Bool) : (s.setPendingNMI v).io = s.io := rfl

/-! ### `setPendingIRQ` -/

@[simp] theorem State.setPendingIRQ_a (v : Bool) : (s.setPendingIRQ v).a = s.a := rfl
@[simp] theorem State.setPendingIRQ_x (v : Bool) : (s.setPendingIRQ v).x = s.x := rfl
@[simp] theorem State.setPendingIRQ_y (v : Bool) : (s.setPendingIRQ v).y = s.y := rfl
@[simp] theorem State.setPendingIRQ_sp (v : Bool) : (s.setPendingIRQ v).sp = s.sp := rfl
@[simp] theorem State.setPendingIRQ_p (v : Bool) : (s.setPendingIRQ v).p = s.p := rfl
@[simp] theorem State.setPendingIRQ_pc (v : Bool) : (s.setPendingIRQ v).pc = s.pc := rfl
@[simp] theorem State.setPendingIRQ_cycleCounter (v : Bool) : (s.setPendingIRQ v).cycleCounter = s.cycleCounter := rfl
@[simp] theorem State.setPendingIRQ_pendingNMI (v : Bool) : (s.setPendingIRQ v).pendingNMI = s.pendingNMI := rfl
@[simp] theorem State.setPendingIRQ_pendingIRQ (v : Bool) : (s.setPendingIRQ v).pendingIRQ = v := rfl
@[simp] theorem State.setPendingIRQ_running (v : Bool) : (s.setPendingIRQ v).running = s.running := rfl
@[simp] theorem State.setPendingIRQ_ram (v : Bool) : (s.setPendingIRQ v).ram = s.ram := rfl
@[simp] theorem State.setPendingIRQ_timer (v : Bool) : (s.setPendingIRQ v).timer = s.timer := rfl
@[simp] theorem State.setPendingIRQ_cfg (v : Bool) : (s.setPendingIRQ v).cfg = s.cfg := rfl
@[simp] theorem State.setPendingIRQ_inputs (v : Bool) : (s.setPendingIRQ v).inputs = s.inputs := rfl
@[simp] theorem State.setPendingIRQ_io (v : Bool) : (s.setPendingIRQ v).io = s.io := rfl

/-! ### `setTimer` -/

@[simp] theorem State.setTimer_a (v : Timer) : (s.setTimer v).a = s.a := rfl
@[simp] theorem State.setTimer_x (v : Timer) : (s.setTimer v).x = s.x := rfl
@[simp] theorem State.setTimer_y (v : Timer) : (s.setTimer v).y = s.y := rfl
@[simp] theorem State.setTimer_sp (v : Timer) : (s.setTimer v).sp = s.sp := rfl
@[simp] theorem State.setTimer_p (v : Timer) : (s.setTimer v).p = s.p := rfl
@[simp] theorem State.setTimer_pc (v : Timer) : (s.setTimer v).pc = s.pc := rfl
@[simp] theorem State.setTimer_cycleCounter (v : Timer) : (s.setTimer v).cycleCounter = s.cycleCounter := rfl
@[simp] theorem State.setTimer_pendingNMI (v : Timer) : (s.setTimer v).pendingNMI = s.pendingNMI := rfl
@[simp] theorem State.setTimer_pendingIRQ (v : Timer) : (s.setTimer v).pendingIRQ = s.pendingIRQ := rfl
@[simp] theorem State.setTimer_running (v : Timer) : (s.setTimer v).running = s.running := rfl
@[simp] theorem State.setTimer_ram (v : Timer) : (s.setTimer v).ram = s.ram := rfl
@[simp] theorem State.setTimer_timer (v : Timer) : (s.setTimer v).timer = v := rfl
@[simp] theorem State.setTimer_cfg (v : Timer) : (s.setTimer v).cfg = s.cfg := rfl
@[simp] theorem State.setTimer_inputs (v : Timer) : (s.setTimer v).inputs = s.inputs := rfl
@[simp] theorem State.setTimer_io (v : Timer) : (s.setTimer v).io = s.io := rfl

/-! ### `setFlag`, `setNZ` -/

@[simp] theorem State.setFlag_eq (f : Flag) (b : Bool) : s.setFlag f b = s.setP (putFlag f b s.p) := rfl
@[simp] theorem State.setNZ_eq (v : Byte) : s.setNZ v = s.setP (putNZ v s.p) := rfl
theorem State.flag_eq (f : Flag) : s.flag f = getFlag f s.p := rfl

end Sys2Proof.Machine
end

