-- ==== Sys2Proof/Laws/Ops.lean ====
section
/-! SUPPORT. Per shared operation, everything it can change. -/

namespace Sys2Proof.Machine

/-! ### Reads of two bytes and fetches -/

theorem State.read16_shape (s : State) (a : Word) : (s.read16 a).2 = { s with io := (s.read16 a).2.io } := by
  simp only [State.read16]
  rw [State.busRead_shape, State.busRead_shape s]

@[simp] theorem State.read16_a (s : State) (a : Word) : (s.read16 a).2.a = s.a := by rw [s.read16_shape a]
@[simp] theorem State.read16_x (s : State) (a : Word) : (s.read16 a).2.x = s.x := by rw [s.read16_shape a]
@[simp] theorem State.read16_y (s : State) (a : Word) : (s.read16 a).2.y = s.y := by rw [s.read16_shape a]
@[simp] theorem State.read16_sp (s : State) (a : Word) : (s.read16 a).2.sp = s.sp := by rw [s.read16_shape a]
@[simp] theorem State.read16_p (s : State) (a : Word) : (s.read16 a).2.p = s.p := by rw [s.read16_shape a]
@[simp] theorem State.read16_pc (s : State) (a : Word) : (s.read16 a).2.pc = s.pc := by rw [s.read16_shape a]
@[simp] theorem State.read16_cycleCounter (s : State) (a : Word) : (s.read16 a).2.cycleCounter = s.cycleCounter := by rw [s.read16_shape a]
@[simp] theorem State.read16_pendingNMI (s : State) (a : Word) : (s.read16 a).2.pendingNMI = s.pendingNMI := by rw [s.read16_shape a]
@[simp] theorem State.read16_pendingIRQ (s : State) (a : Word) : (s.read16 a).2.pendingIRQ = s.pendingIRQ := by rw [s.read16_shape a]
@[simp] theorem State.read16_running (s : State) (a : Word) : (s.read16 a).2.running = s.running := by rw [s.read16_shape a]
@[simp] theorem State.read16_ram (s : State) (a : Word) : (s.read16 a).2.ram = s.ram := by rw [s.read16_shape a]
@[simp] theorem State.read16_timer (s : State) (a : Word) : (s.read16 a).2.timer = s.timer := by rw [s.read16_shape a]
@[simp] theorem State.read16_cfg (s : State) (a : Word) : (s.read16 a).2.cfg = s.cfg := by rw [s.read16_shape a]
@[simp] theorem State.read16_inputs (s : State) (a : Word) : (s.read16 a).2.inputs = s.inputs := by rw [s.read16_shape a]

theorem State.readZP16_shape (s : State) (a : Byte) : (s.readZP16 a).2 = { s with io := (s.readZP16 a).2.io } := by
  simp only [State.readZP16]
  rw [State.busRead_shape, State.busRead_shape s]

@[simp] theorem State.readZP16_a (s : State) (a : Byte) : (s.readZP16 a).2.a = s.a := by rw [s.readZP16_shape a]
@[simp] theorem State.readZP16_x (s : State) (a : Byte) : (s.readZP16 a).2.x = s.x := by rw [s.readZP16_shape a]
@[simp] theorem State.readZP16_y (s : State) (a : Byte) : (s.readZP16 a).2.y = s.y := by rw [s.readZP16_shape a]
@[simp] theorem State.readZP16_sp (s : State) (a : Byte) : (s.readZP16 a).2.sp = s.sp := by rw [s.readZP16_shape a]
@[simp] theorem State.readZP16_p (s : State) (a : Byte) : (s.readZP16 a).2.p = s.p := by rw [s.readZP16_shape a]
@[simp] theorem State.readZP16_pc (s : State) (a : Byte) : (s.readZP16 a).2.pc = s.pc := by rw [s.readZP16_shape a]
@[simp] theorem State.readZP16_cycleCounter (s : State) (a : Byte) : (s.readZP16 a).2.cycleCounter = s.cycleCounter := by rw [s.readZP16_shape a]
@[simp] theorem State.readZP16_pendingNMI (s : State) (a : Byte) : (s.readZP16 a).2.pendingNMI = s.pendingNMI := by rw [s.readZP16_shape a]
@[simp] theorem State.readZP16_pendingIRQ (s : State) (a : Byte) : (s.readZP16 a).2.pendingIRQ = s.pendingIRQ := by rw [s.readZP16_shape a]
@[simp] theorem State.readZP16_running (s : State) (a : Byte) : (s.readZP16 a).2.running = s.running := by rw [s.readZP16_shape a]
@[simp] theorem State.readZP16_ram (s : State) (a : Byte) : (s.readZP16 a).2.ram = s.ram := by rw [s.readZP16_shape a]
@[simp] theorem State.readZP16_timer (s : State) (a : Byte) : (s.readZP16 a).2.timer = s.timer := by rw [s.readZP16_shape a]
@[simp] theorem State.readZP16_cfg (s : State) (a : Byte) : (s.readZP16 a).2.cfg = s.cfg := by rw [s.readZP16_shape a]
@[simp] theorem State.readZP16_inputs (s : State) (a : Byte) : (s.readZP16 a).2.inputs = s.inputs := by rw [s.readZP16_shape a]

theorem State.readIndirect_shape (s : State) (a : Word) : (s.readIndirect a).2 = { s with io := (s.readIndirect a).2.io } := by
  simp only [State.readIndirect]
  rw [State.busRead_shape, State.busRead_shape s]

@[simp] theorem State.readIndirect_a (s : State) (a : Word) : (s.readIndirect a).2.a = s.a := by rw [s.readIndirect_shape a]
@[simp] theorem State.readIndirect_x (s : State) (a : Word) : (s.readIndirect a).2.x = s.x := by rw [s.readIndirect_shape a]
@[simp] theorem State.readIndirect_y (s : State) (a : Word) : (s.readIndirect a).2.y = s.y := by rw [s.readIndirect_shape a]
@[simp] theorem State.readIndirect_sp (s : State) (a : Word) : (s.readIndirect a).2.sp = s.sp := by rw [s.readIndirect_shape a]
@[simp] theorem State.readIndirect_p (s : State) (a : Word) : (s.readIndirect a).2.p = s.p := by rw [s.readIndirect_shape a]
@[simp] theorem State.readIndirect_pc (s : State) (a : Word) : (s.readIndirect a).2.pc = s.pc := by rw [s.readIndirect_shape a]
@[simp] theorem State.readIndirect_cycleCounter (s : State) (a : Word) : (s.readIndirect a).2.cycleCounter = s.cycleCounter := by rw [s.readIndirect_shape a]
@[simp] theorem State.readIndirect_pendingNMI (s : State) (a : Word) : (s.readIndirect a).2.pendingNMI = s.pendingNMI := by rw [s.readIndirect_shape a]
@[simp] theorem State.readIndirect_pendingIRQ (s : State) (a : Word) : (s.readIndirect a).2.pendingIRQ = s.pendingIRQ := by rw [s.readIndirect_shape a]
@[simp] theorem State.readIndirect_running (s : State) (a : Word) : (s.readIndirect a).2.running = s.running := by rw [s.readIndirect_shape a]
@[simp] theorem State.readIndirect_ram (s : State) (a : Word) : (s.readIndirect a).2.ram = s.ram := by rw [s.readIndirect_shape a]
@[simp] theorem State.readIndirect_timer (s : State) (a : Word) : (s.readIndirect a).2.timer = s.timer := by rw [s.readIndirect_shape a]
@[simp] theorem State.readIndirect_cfg (s : State) (a : Word) : (s.readIndirect a).2.cfg = s.cfg := by rw [s.readIndirect_shape a]
@[simp] theorem State.readIndirect_inputs (s : State) (a : Word) : (s.readIndirect a).2.inputs = s.inputs := by rw [s.readIndirect_shape a]

theorem State.fetchByte_shape (s : State) :
    s.fetchByte.2 = { s with pc := s.pc + 1, io := (s.busRead s.pc).2.io } := by
  simp only [State.fetchByte]
  rw [State.busRead_shape]
  rfl

@[simp] theorem State.fetchByte_a (s : State) : s.fetchByte.2.a = s.a := by rw [s.fetchByte_shape]
@[simp] theorem State.fetchByte_x (s : State) : s.fetchByte.2.x = s.x := by rw [s.fetchByte_shape]
@[simp] theorem State.fetchByte_y (s : State) : s.fetchByte.2.y = s.y := by rw [s.fetchByte_shape]
@[simp] theorem State.fetchByte_sp (s : State) : s.fetchByte.2.sp = s.sp := by rw [s.fetchByte_shape]
@[simp] theorem State.fetchByte_p (s : State) : s.fetchByte.2.p = s.p := by rw [s.fetchByte_shape]
@[simp] theorem State.fetchByte_pc (s : State) : s.fetchByte.2.pc = s.pc + 1 := by rw [s.fetchByte_shape]
@[simp] theorem State.fetchByte_cycleCounter (s : State) : s.fetchByte.2.cycleCounter = s.cycleCounter := by rw [s.fetchByte_shape]
@[simp] theorem State.fetchByte_pendingNMI (s : State) : s.fetchByte.2.pendingNMI = s.pendingNMI := by rw [s.fetchByte_shape]
@[simp] theorem State.fetchByte_pendingIRQ (s : State) : s.fetchByte.2.pendingIRQ = s.pendingIRQ := by rw [s.fetchByte_shape]
@[simp] theorem State.fetchByte_running (s : State) : s.fetchByte.2.running = s.running := by rw [s.fetchByte_shape]
@[simp] theorem State.fetchByte_ram (s : State) : s.fetchByte.2.ram = s.ram := by rw [s.fetchByte_shape]
@[simp] theorem State.fetchByte_timer (s : State) : s.fetchByte.2.timer = s.timer := by rw [s.fetchByte_shape]
@[simp] theorem State.fetchByte_cfg (s : State) : s.fetchByte.2.cfg = s.cfg := by rw [s.fetchByte_shape]
@[simp] theorem State.fetchByte_inputs (s : State) : s.fetchByte.2.inputs = s.inputs := by rw [s.fetchByte_shape]

@[simp] theorem State.fetchByte_io (s : State) : s.fetchByte.2.io = (s.busRead s.pc).2.io := rfl

/-! ### The stack -/

theorem State.push_shape (s : State) (v : Byte) :
    s.push v =
      { s with
        sp := s.sp - 1, ram := (s.push v).ram, timer := (s.push v).timer, io := (s.push v).io } := by
  simp only [State.push]
  rw [State.busWrite_shape]
  rfl

@[simp] theorem State.push_a (s : State) (v : Byte) : (s.push v).a = s.a := by rw [s.push_shape v]
@[simp] theorem State.push_x (s : State) (v : Byte) : (s.push v).x = s.x := by rw [s.push_shape v]
@[simp] theorem State.push_y (s : State) (v : Byte) : (s.push v).y = s.y := by rw [s.push_shape v]
@[simp] theorem State.push_sp (s : State) (v : Byte) : (s.push v).sp = s.sp - 1 := by rw [s.push_shape v]
@[simp] theorem State.push_p (s : State) (v : Byte) : (s.push v).p = s.p := by rw [s.push_shape v]
@[simp] theorem State.push_pc (s : State) (v : Byte) : (s.push v).pc = s.pc := by rw [s.push_shape v]
@[simp] theorem State.push_cycleCounter (s : State) (v : Byte) : (s.push v).cycleCounter = s.cycleCounter := by rw [s.push_shape v]
@[simp] theorem State.push_pendingNMI (s : State) (v : Byte) : (s.push v).pendingNMI = s.pendingNMI := by rw [s.push_shape v]
@[simp] theorem State.push_pendingIRQ (s : State) (v : Byte) : (s.push v).pendingIRQ = s.pendingIRQ := by rw [s.push_shape v]
@[simp] theorem State.push_running (s : State) (v : Byte) : (s.push v).running = s.running := by rw [s.push_shape v]
@[simp] theorem State.push_cfg (s : State) (v : Byte) : (s.push v).cfg = s.cfg := by rw [s.push_shape v]
@[simp] theorem State.push_inputs (s : State) (v : Byte) : (s.push v).inputs = s.inputs := by rw [s.push_shape v]

theorem State.pull_shape (s : State) :
    s.pull.2 = { s with sp := s.sp + 1, io := s.pull.2.io } := by
  simp only [State.pull]
  rw [State.busRead_shape]
  rfl

@[simp] theorem State.pull_a (s : State) : s.pull.2.a = s.a := by rw [s.pull_shape]
@[simp] theorem State.pull_x (s : State) : s.pull.2.x = s.x := by rw [s.pull_shape]
@[simp] theorem State.pull_y (s : State) : s.pull.2.y = s.y := by rw [s.pull_shape]
@[simp] theorem State.pull_sp (s : State) : s.pull.2.sp = s.sp + 1 := by rw [s.pull_shape]
@[simp] theorem State.pull_p (s : State) : s.pull.2.p = s.p := by rw [s.pull_shape]
@[simp] theorem State.pull_pc (s : State) : s.pull.2.pc = s.pc := by rw [s.pull_shape]
@[simp] theorem State.pull_cycleCounter (s : State) : s.pull.2.cycleCounter = s.cycleCounter := by rw [s.pull_shape]
@[simp] theorem State.pull_pendingNMI (s : State) : s.pull.2.pendingNMI = s.pendingNMI := by rw [s.pull_shape]
@[simp] theorem State.pull_pendingIRQ (s : State) : s.pull.2.pendingIRQ = s.pendingIRQ := by rw [s.pull_shape]
@[simp] theorem State.pull_running (s : State) : s.pull.2.running = s.running := by rw [s.pull_shape]
@[simp] theorem State.pull_ram (s : State) : s.pull.2.ram = s.ram := by rw [s.pull_shape]
@[simp] theorem State.pull_timer (s : State) : s.pull.2.timer = s.timer := by rw [s.pull_shape]
@[simp] theorem State.pull_cfg (s : State) : s.pull.2.cfg = s.cfg := by rw [s.pull_shape]
@[simp] theorem State.pull_inputs (s : State) : s.pull.2.inputs = s.inputs := by rw [s.pull_shape]

/-- The byte a pull gives: the one at the new stack address. -/
theorem State.pull_fst (s : State) : s.pull.1 = (s.busRead (stackAddr (s.sp + 1))).1 :=
  (State.busRead_congr (s := s) (t := s.setSP (s.sp + 1)) rfl rfl rfl _).1

theorem State.pull_io (s : State) : s.pull.2.io = (s.busRead (stackAddr (s.sp + 1))).2.io :=
  (State.busRead_congr (s := s) (t := s.setSP (s.sp + 1)) rfl rfl rfl _).2

theorem State.pushWord_shape (s : State) (w : Word) :
    s.pushWord w =
      { s with
        sp := s.sp - 2, ram := (s.pushWord w).ram, timer := (s.pushWord w).timer, io := (s.pushWord w).io } := by
  simp only [State.pushWord]
  rw [State.push_shape (s.push _), State.push_shape s]
  simp [BitVec.sub_sub]

@[simp] theorem State.pushWord_a (s : State) (w : Word) : (s.pushWord w).a = s.a := by rw [s.pushWord_shape w]
@[simp] theorem State.pushWord_x (s : State) (w : Word) : (s.pushWord w).x = s.x := by rw [s.pushWord_shape w]
@[simp] theorem State.pushWord_y (s : State) (w : Word) : (s.pushWord w).y = s.y := by rw [s.pushWord_shape w]
@[simp] theorem State.pushWord_sp (s : State) (w : Word) : (s.pushWord w).sp = s.sp - 2 := by rw [s.pushWord_shape w]
@[simp] theorem State.pushWord_p (s : State) (w : Word) : (s.pushWord w).p = s.p := by rw [s.pushWord_shape w]
@[simp] theorem State.pushWord_pc (s : State) (w : Word) : (s.pushWord w).pc = s.pc := by rw [s.pushWord_shape w]
@[simp] theorem State.pushWord_cycleCounter (s : State) (w : Word) : (s.pushWord w).cycleCounter = s.cycleCounter := by rw [s.pushWord_shape w]
@[simp] theorem State.pushWord_pendingNMI (s : State) (w : Word) : (s.pushWord w).pendingNMI = s.pendingNMI := by rw [s.pushWord_shape w]
@[simp] theorem State.pushWord_pendingIRQ (s : State) (w : Word) : (s.pushWord w).pendingIRQ = s.pendingIRQ := by rw [s.pushWord_shape w]
@[simp] theorem State.pushWord_running (s : State) (w : Word) : (s.pushWord w).running = s.running := by rw [s.pushWord_shape w]
@[simp] theorem State.pushWord_cfg (s : State) (w : Word) : (s.pushWord w).cfg = s.cfg := by rw [s.pushWord_shape w]
@[simp] theorem State.pushWord_inputs (s : State) (w : Word) : (s.pushWord w).inputs = s.inputs := by rw [s.pushWord_shape w]

theorem State.pullWord_shape (s : State) :
    s.pullWord.2 = { s with sp := s.sp + 2, io := s.pullWord.2.io } := by
  simp only [State.pullWord]
  rw [State.pull_shape s.pull.2, State.pull_shape s]
  simp [BitVec.add_assoc]

@[simp] theorem State.pullWord_a (s : State) : s.pullWord.2.a = s.a := by rw [s.pullWord_shape]
@[simp] theorem State.pullWord_x (s : State) : s.pullWord.2.x = s.x := by rw [s.pullWord_shape]
@[simp] theorem State.pullWord_y (s : State) : s.pullWord.2.y = s.y := by rw [s.pullWord_shape]
@[simp] theorem State.pullWord_sp (s : State) : s.pullWord.2.sp = s.sp + 2 := by rw [s.pullWord_shape]
@[simp] theorem State.pullWord_p (s : State) : s.pullWord.2.p = s.p := by rw [s.pullWord_shape]
@[simp] theorem State.pullWord_pc (s : State) : s.pullWord.2.pc = s.pc := by rw [s.pullWord_shape]
@[simp] theorem State.pullWord_cycleCounter (s : State) : s.pullWord.2.cycleCounter = s.cycleCounter := by rw [s.pullWord_shape]
@[simp] theorem State.pullWord_pendingNMI (s : State) : s.pullWord.2.pendingNMI = s.pendingNMI := by rw [s.pullWord_shape]
@[simp] theorem State.pullWord_pendingIRQ (s : State) : s.pullWord.2.pendingIRQ = s.pendingIRQ := by rw [s.pullWord_shape]
@[simp] theorem State.pullWord_running (s : State) : s.pullWord.2.running = s.running := by rw [s.pullWord_shape]
@[simp] theorem State.pullWord_ram (s : State) : s.pullWord.2.ram = s.ram := by rw [s.pullWord_shape]
@[simp] theorem State.pullWord_timer (s : State) : s.pullWord.2.timer = s.timer := by rw [s.pullWord_shape]
@[simp] theorem State.pullWord_cfg (s : State) : s.pullWord.2.cfg = s.cfg := by rw [s.pullWord_shape]
@[simp] theorem State.pullWord_inputs (s : State) : s.pullWord.2.inputs = s.inputs := by rw [s.pullWord_shape]

/-! ### Entry and return -/

theorem State.enterHandler_shape (s : State) (vector : Word) (status : Byte) :
    s.enterHandler vector status =
      { s with
        sp := s.sp - 3, p := putFlag .i true s.p, pc := (s.enterHandler vector status).pc
        ram := (s.enterHandler vector status).ram, timer := (s.enterHandler vector status).timer
        io := (s.enterHandler vector status).io } := by
  simp only [State.enterHandler]
  rw [State.read16_shape]
  simp [State.setPC, State.setP]
  bv_omega

@[simp] theorem State.enterHandler_a (s : State) (vector : Word) (status : Byte) : (s.enterHandler vector status).a = s.a := by rw [s.enterHandler_shape vector status]
@[simp] theorem State.enterHandler_x (s : State) (vector : Word) (status : Byte) : (s.enterHandler vector status).x = s.x := by rw [s.enterHandler_shape vector status]
@[simp] theorem State.enterHandler_y (s : State) (vector : Word) (status : Byte) : (s.enterHandler vector status).y = s.y := by rw [s.enterHandler_shape vector status]
@[simp] theorem State.enterHandler_sp (s : State) (vector : Word) (status : Byte) : (s.enterHandler vector status).sp = s.sp - 3 := by rw [s.enterHandler_shape vector status]
@[simp] theorem State.enterHandler_p (s : State) (vector : Word) (status : Byte) : (s.enterHandler vector status).p = putFlag .i true s.p := by rw [s.enterHandler_shape vector status]
@[simp] theorem State.enterHandler_cycleCounter (s : State) (vector : Word) (status : Byte) : (s.enterHandler vector status).cycleCounter = s.cycleCounter := by rw [s.enterHandler_shape vector status]
@[simp] theorem State.enterHandler_pendingNMI (s : State) (vector : Word) (status : Byte) : (s.enterHandler vector status).pendingNMI = s.pendingNMI := by rw [s.enterHandler_shape vector status]
@[simp] theorem State.enterHandler_pendingIRQ (s : State) (vector : Word) (status : Byte) : (s.enterHandler vector status).pendingIRQ = s.pendingIRQ := by rw [s.enterHandler_shape vector status]
@[simp] theorem State.enterHandler_running (s : State) (vector : Word) (status : Byte) : (s.enterHandler vector status).running = s.running := by rw [s.enterHandler_shape vector status]
@[simp] theorem State.enterHandler_cfg (s : State) (vector : Word) (status : Byte) : (s.enterHandler vector status).cfg = s.cfg := by rw [s.enterHandler_shape vector status]
@[simp] theorem State.enterHandler_inputs (s : State) (vector : Word) (status : Byte) : (s.enterHandler vector status).inputs = s.inputs := by rw [s.enterHandler_shape vector status]

theorem State.returnFromHandler_shape (s : State) :
    s.returnFromHandler =
      { s with
        sp := s.sp + 3, p := statusPulled s.pull.1, pc := s.returnFromHandler.pc
        io := s.returnFromHandler.io } := by
  simp only [State.returnFromHandler]
  rw [State.pullWord_shape]
  simp [State.setPC, State.setP]
  bv_omega

@[simp] theorem State.returnFromHandler_a (s : State) : s.returnFromHandler.a = s.a := by rw [s.returnFromHandler_shape]
@[simp] theorem State.returnFromHandler_x (s : State) : s.returnFromHandler.x = s.x := by rw [s.returnFromHandler_shape]
@[simp] theorem State.returnFromHandler_y (s : State) : s.returnFromHandler.y = s.y := by rw [s.returnFromHandler_shape]
@[simp] theorem State.returnFromHandler_sp (s : State) : s.returnFromHandler.sp = s.sp + 3 := by rw [s.returnFromHandler_shape]
@[simp] theorem State.returnFromHandler_p (s : State) : s.returnFromHandler.p = statusPulled s.pull.1 := by rw [s.returnFromHandler_shape]
@[simp] theorem State.returnFromHandler_cycleCounter (s : State) : s.returnFromHandler.cycleCounter = s.cycleCounter := by rw [s.returnFromHandler_shape]
@[simp] theorem State.returnFromHandler_pendingNMI (s : State) : s.returnFromHandler.pendingNMI = s.pendingNMI := by rw [s.returnFromHandler_shape]
@[simp] theorem State.returnFromHandler_pendingIRQ (s : State) : s.returnFromHandler.pendingIRQ = s.pendingIRQ := by rw [s.returnFromHandler_shape]
@[simp] theorem State.returnFromHandler_running (s : State) : s.returnFromHandler.running = s.running := by rw [s.returnFromHandler_shape]
@[simp] theorem State.returnFromHandler_ram (s : State) : s.returnFromHandler.ram = s.ram := by rw [s.returnFromHandler_shape]
@[simp] theorem State.returnFromHandler_timer (s : State) : s.returnFromHandler.timer = s.timer := by rw [s.returnFromHandler_shape]
@[simp] theorem State.returnFromHandler_cfg (s : State) : s.returnFromHandler.cfg = s.cfg := by rw [s.returnFromHandler_shape]
@[simp] theorem State.returnFromHandler_inputs (s : State) : s.returnFromHandler.inputs = s.inputs := by rw [s.returnFromHandler_shape]

/-! ### Reset and the tick -/

theorem State.doReset_shape (s : State) :
    s.doReset =
      { s with
        pc := (s.read16 resetVector).1, sp := 0xFD, p := 0x24, cycleCounter := 0
        pendingNMI := false, pendingIRQ := false, running := true, io := (s.read16 resetVector).2.io } := by
  simp only [State.doReset]
  rw [State.read16_shape]

theorem State.tick_shape (s : State) (n : Nat) :
    s.tick n = { s with timer := s.timer.tick n, pendingIRQ := (s.tick n).pendingIRQ } := by
  simp only [State.tick, State.irq]
  split
  · split <;> rfl
  · rfl

@[simp] theorem State.tick_a (s : State) (n : Nat) : (s.tick n).a = s.a := by rw [s.tick_shape n]
@[simp] theorem State.tick_x (s : State) (n : Nat) : (s.tick n).x = s.x := by rw [s.tick_shape n]
@[simp] theorem State.tick_y (s : State) (n : Nat) : (s.tick n).y = s.y := by rw [s.tick_shape n]
@[simp] theorem State.tick_sp (s : State) (n : Nat) : (s.tick n).sp = s.sp := by rw [s.tick_shape n]
@[simp] theorem State.tick_p (s : State) (n : Nat) : (s.tick n).p = s.p := by rw [s.tick_shape n]
@[simp] theorem State.tick_pc (s : State) (n : Nat) : (s.tick n).pc = s.pc := by rw [s.tick_shape n]
@[simp] theorem State.tick_cycleCounter (s : State) (n : Nat) : (s.tick n).cycleCounter = s.cycleCounter := by rw [s.tick_shape n]
@[simp] theorem State.tick_pendingNMI (s : State) (n : Nat) : (s.tick n).pendingNMI = s.pendingNMI := by rw [s.tick_shape n]
@[simp] theorem State.tick_running (s : State) (n : Nat) : (s.tick n).running = s.running := by rw [s.tick_shape n]
@[simp] theorem State.tick_ram (s : State) (n : Nat) : (s.tick n).ram = s.ram := by rw [s.tick_shape n]
@[simp] theorem State.tick_timer (s : State) (n : Nat) : (s.tick n).timer = s.timer.tick n := by rw [s.tick_shape n]
@[simp] theorem State.tick_cfg (s : State) (n : Nat) : (s.tick n).cfg = s.cfg := by rw [s.tick_shape n]
@[simp] theorem State.tick_inputs (s : State) (n : Nat) : (s.tick n).inputs = s.inputs := by rw [s.tick_shape n]
@[simp] theorem State.tick_io (s : State) (n : Nat) : (s.tick n).io = s.io := by rw [s.tick_shape n]

/-- A tick keeps the counter in its range (10 R22). -/
theorem Timer.tick_range {t : Timer} {n : Nat} (h : 0 ≤ t.counter ∧ t.counter ≤ 0x10000) :
    0 ≤ (t.tick n).counter ∧ (t.tick n).counter ≤ 0x10000 := by
  have hl := t.latch.isLt
  unfold Timer.tick
  split
  · simp only [Timer.reload]
    split <;> omega
  · next he =>
    split
    · next hen =>
      simp [Timer.expires, hen] at he
      simp only
      omega
    · exact h

/-! ### RAM and the timer across the stack operations -/

/-- RAM in canonical form and the timer's counter in its range: what every write keeps. -/
structure MemoryOk (s : State) : Prop where
  ram : Memory.wf s.ram = true
  low : 0 ≤ s.timer.counter
  high : s.timer.counter ≤ 0x10000

theorem MemoryOk.of_eq {s t : State} (h : MemoryOk s) (hr : t.ram = s.ram) (ht : t.timer = s.timer) : MemoryOk t :=
  ⟨hr ▸ h.ram, ht ▸ h.low, ht ▸ h.high⟩

theorem MemoryOk.busWrite {s : State} (h : MemoryOk s) (a : Word) (v : Byte) : MemoryOk (s.busWrite a v) := by
  have hr : 0 ≤ (s.busWrite a v).timer.counter ∧ (s.busWrite a v).timer.counter ≤ 0x10000 := by
    rcases s.busWrite_timer a v with ht | ⟨i, ht⟩ <;> rw [ht]
    · exact ⟨h.low, h.high⟩
    · exact Timer.writeRegister_range ⟨h.low, h.high⟩
  exact ⟨State.busWrite_wf h.ram, hr.1, hr.2⟩

theorem MemoryOk.push {s : State} (h : MemoryOk s) (v : Byte) : MemoryOk (s.push v) :=
  (h.busWrite (stackAddr s.sp) v).of_eq rfl rfl

theorem MemoryOk.pushWord {s : State} (h : MemoryOk s) (w : Word) : MemoryOk (s.pushWord w) :=
  (h.push _).push _

theorem MemoryOk.enterHandler {s : State} (h : MemoryOk s) (vector : Word) (status : Byte) :
    MemoryOk (s.enterHandler vector status) :=
  ((h.pushWord s.pc).push status).of_eq
    (by simp [State.enterHandler]) (by simp [State.enterHandler])

theorem MemoryOk.tick {s : State} (h : MemoryOk s) (n : Nat) : MemoryOk (s.tick n) := by
  have := Timer.tick_range (n := n) ⟨h.low, h.high⟩
  exact ⟨by simpa using h.ram, by simpa using this.1, by simpa using this.2⟩

end Sys2Proof.Machine
end

