-- ==== Sys2Proof/Laws/Operands.lean ====
section
/-! SUPPORT. The resolvers, the operand access and the frame of an instruction: what each can change. -/

namespace Sys2Proof.Machine

theorem State.resolve_shape (s : State) (o : Operand) :
    (s.resolve o).2 = { s with io := (s.resolve o).2.io } := by
  cases o with
  | ind a => exact s.readIndirect_shape a
  | indX a => exact s.readZP16_shape _
  | indY a => exact s.readZP16_shape _
  | _ => rfl

@[simp] theorem State.resolve_a (s : State) (o : Operand) : (s.resolve o).2.a = s.a := by rw [s.resolve_shape o]
@[simp] theorem State.resolve_x (s : State) (o : Operand) : (s.resolve o).2.x = s.x := by rw [s.resolve_shape o]
@[simp] theorem State.resolve_y (s : State) (o : Operand) : (s.resolve o).2.y = s.y := by rw [s.resolve_shape o]
@[simp] theorem State.resolve_sp (s : State) (o : Operand) : (s.resolve o).2.sp = s.sp := by rw [s.resolve_shape o]
@[simp] theorem State.resolve_p (s : State) (o : Operand) : (s.resolve o).2.p = s.p := by rw [s.resolve_shape o]
@[simp] theorem State.resolve_pc (s : State) (o : Operand) : (s.resolve o).2.pc = s.pc := by rw [s.resolve_shape o]
@[simp] theorem State.resolve_cycleCounter (s : State) (o : Operand) : (s.resolve o).2.cycleCounter = s.cycleCounter := by rw [s.resolve_shape o]
@[simp] theorem State.resolve_pendingNMI (s : State) (o : Operand) : (s.resolve o).2.pendingNMI = s.pendingNMI := by rw [s.resolve_shape o]
@[simp] theorem State.resolve_pendingIRQ (s : State) (o : Operand) : (s.resolve o).2.pendingIRQ = s.pendingIRQ := by rw [s.resolve_shape o]
@[simp] theorem State.resolve_running (s : State) (o : Operand) : (s.resolve o).2.running = s.running := by rw [s.resolve_shape o]
@[simp] theorem State.resolve_ram (s : State) (o : Operand) : (s.resolve o).2.ram = s.ram := by rw [s.resolve_shape o]
@[simp] theorem State.resolve_timer (s : State) (o : Operand) : (s.resolve o).2.timer = s.timer := by rw [s.resolve_shape o]
@[simp] theorem State.resolve_cfg (s : State) (o : Operand) : (s.resolve o).2.cfg = s.cfg := by rw [s.resolve_shape o]
@[simp] theorem State.resolve_inputs (s : State) (o : Operand) : (s.resolve o).2.inputs = s.inputs := by rw [s.resolve_shape o]

theorem State.loadOperand_shape (s : State) (l : Location) :
    (s.loadOperand l).2 = { s with io := (s.loadOperand l).2.io } := by
  cases l with
  | mem a => exact s.busRead_shape a
  | _ => rfl

@[simp] theorem State.loadOperand_a (s : State) (l : Location) : (s.loadOperand l).2.a = s.a := by rw [s.loadOperand_shape l]
@[simp] theorem State.loadOperand_x (s : State) (l : Location) : (s.loadOperand l).2.x = s.x := by rw [s.loadOperand_shape l]
@[simp] theorem State.loadOperand_y (s : State) (l : Location) : (s.loadOperand l).2.y = s.y := by rw [s.loadOperand_shape l]
@[simp] theorem State.loadOperand_sp (s : State) (l : Location) : (s.loadOperand l).2.sp = s.sp := by rw [s.loadOperand_shape l]
@[simp] theorem State.loadOperand_p (s : State) (l : Location) : (s.loadOperand l).2.p = s.p := by rw [s.loadOperand_shape l]
@[simp] theorem State.loadOperand_pc (s : State) (l : Location) : (s.loadOperand l).2.pc = s.pc := by rw [s.loadOperand_shape l]
@[simp] theorem State.loadOperand_cycleCounter (s : State) (l : Location) : (s.loadOperand l).2.cycleCounter = s.cycleCounter := by rw [s.loadOperand_shape l]
@[simp] theorem State.loadOperand_pendingNMI (s : State) (l : Location) : (s.loadOperand l).2.pendingNMI = s.pendingNMI := by rw [s.loadOperand_shape l]
@[simp] theorem State.loadOperand_pendingIRQ (s : State) (l : Location) : (s.loadOperand l).2.pendingIRQ = s.pendingIRQ := by rw [s.loadOperand_shape l]
@[simp] theorem State.loadOperand_running (s : State) (l : Location) : (s.loadOperand l).2.running = s.running := by rw [s.loadOperand_shape l]
@[simp] theorem State.loadOperand_ram (s : State) (l : Location) : (s.loadOperand l).2.ram = s.ram := by rw [s.loadOperand_shape l]
@[simp] theorem State.loadOperand_timer (s : State) (l : Location) : (s.loadOperand l).2.timer = s.timer := by rw [s.loadOperand_shape l]
@[simp] theorem State.loadOperand_cfg (s : State) (l : Location) : (s.loadOperand l).2.cfg = s.cfg := by rw [s.loadOperand_shape l]
@[simp] theorem State.loadOperand_inputs (s : State) (l : Location) : (s.loadOperand l).2.inputs = s.inputs := by rw [s.loadOperand_shape l]

/-- A store to a location that is not `A` changes RAM, the timer and the record of the devices at most. -/
theorem State.storeOperand_shape (s : State) (v : Byte) (l : Location) :
    s.storeOperand v l =
      { s with
        a := (s.storeOperand v l).a, ram := (s.storeOperand v l).ram
        timer := (s.storeOperand v l).timer, io := (s.storeOperand v l).io } := by
  cases l with
  | mem a =>
    change s.busWrite a v = _
    rw [State.busWrite_shape]
    simp [State.storeOperand]
  | _ => rfl

@[simp] theorem State.storeOperand_x (s : State) (v : Byte) (l : Location) : (s.storeOperand v l).x = s.x := by rw [s.storeOperand_shape v l]
@[simp] theorem State.storeOperand_y (s : State) (v : Byte) (l : Location) : (s.storeOperand v l).y = s.y := by rw [s.storeOperand_shape v l]
@[simp] theorem State.storeOperand_sp (s : State) (v : Byte) (l : Location) : (s.storeOperand v l).sp = s.sp := by rw [s.storeOperand_shape v l]
@[simp] theorem State.storeOperand_p (s : State) (v : Byte) (l : Location) : (s.storeOperand v l).p = s.p := by rw [s.storeOperand_shape v l]
@[simp] theorem State.storeOperand_pc (s : State) (v : Byte) (l : Location) : (s.storeOperand v l).pc = s.pc := by rw [s.storeOperand_shape v l]
@[simp] theorem State.storeOperand_cycleCounter (s : State) (v : Byte) (l : Location) : (s.storeOperand v l).cycleCounter = s.cycleCounter := by rw [s.storeOperand_shape v l]
@[simp] theorem State.storeOperand_pendingNMI (s : State) (v : Byte) (l : Location) : (s.storeOperand v l).pendingNMI = s.pendingNMI := by rw [s.storeOperand_shape v l]
@[simp] theorem State.storeOperand_pendingIRQ (s : State) (v : Byte) (l : Location) : (s.storeOperand v l).pendingIRQ = s.pendingIRQ := by rw [s.storeOperand_shape v l]
@[simp] theorem State.storeOperand_running (s : State) (v : Byte) (l : Location) : (s.storeOperand v l).running = s.running := by rw [s.storeOperand_shape v l]
@[simp] theorem State.storeOperand_cfg (s : State) (v : Byte) (l : Location) : (s.storeOperand v l).cfg = s.cfg := by rw [s.storeOperand_shape v l]
@[simp] theorem State.storeOperand_inputs (s : State) (v : Byte) (l : Location) : (s.storeOperand v l).inputs = s.inputs := by rw [s.storeOperand_shape v l]

theorem MemoryOk.storeOperand {s : State} (h : MemoryOk s) (v : Byte) (l : Location) :
    MemoryOk (s.storeOperand v l) := by
  cases l with
  | mem a => exact h.busWrite a v
  | _ => exact h.of_eq rfl rfl

/-! ### The frame of an instruction -/

/-- An instruction that some opcode encodes completes, with its cycles added (40 R91). -/
theorem execute_next {i : Instr} {op : Byte} (h : opcodeOf i = some op) (s : State) (body : State → Bool × State) :
    execute i s body = .next ((body s).2.addCycles (s.cyclesOf op (body s).1)) := by
  simp [execute, h]

/-- A term that no opcode encodes is refused by its name (log 22). -/
theorem execute_refused {i : Instr} (h : opcodeOf i = none) (s : State) (body : State → Bool × State) :
    execute i s body = .refused (.noSuchForm i) := by
  simp [execute, h]

/-- All an instruction that answers a next state can have done. -/
theorem execute_inv {i : Instr} {s t : State} {body : State → Bool × State} (h : execute i s body = .next t) :
    ∃ op, opcodeOf i = some op ∧ t = (body s).2.addCycles (s.cyclesOf op (body s).1) := by
  unfold execute at h
  split at h
  · next op ho => cases h; exact ⟨op, ho, rfl⟩
  · cases h

theorem executeImplied_next {i : Instr} {op : Byte} (h : opcodeOf i = some op) (s : State) (f : State → State) :
    executeImplied i s f = .next ((f s).addCycles (s.cyclesOf op false)) :=
  execute_next h s _

theorem executeOperand_next {i : Instr} {op : Byte} (h : opcodeOf i = some op) (o : Operand) (s : State)
    (f : Location → State → State) :
    executeOperand i o s f =
      .next ((f (s.resolve o).1.loc (s.resolve o).2).addCycles (s.cyclesOf op (s.resolve o).1.crossed)) :=
  execute_next h s _

theorem executeRead_next {i : Instr} {op : Byte} (h : opcodeOf i = some op) (o : Operand) (s : State)
    (f : Byte → State → State) :
    executeRead i o s f =
      .next ((f ((s.resolve o).2.loadOperand (s.resolve o).1.loc).1
          ((s.resolve o).2.loadOperand (s.resolve o).1.loc).2).addCycles
        (s.cyclesOf op (s.resolve o).1.crossed)) :=
  executeOperand_next h o s _

theorem executeModify_next {i : Instr} {op : Byte} (h : opcodeOf i = some op) (o : Operand) (s : State)
    (f : Byte → State → Byte × State) :
    executeModify i o s f =
      let r := f ((s.resolve o).2.loadOperand (s.resolve o).1.loc).1
        ((s.resolve o).2.loadOperand (s.resolve o).1.loc).2
      .next ((r.2.storeOperand r.1 (s.resolve o).1.loc).addCycles (s.cyclesOf op (s.resolve o).1.crossed)) :=
  executeOperand_next h o s _

theorem executeImplied_inv {i : Instr} {s t : State} {f : State → State} (h : executeImplied i s f = .next t) :
    ∃ op, opcodeOf i = some op ∧ t = (f s).addCycles (s.cyclesOf op false) :=
  execute_inv h

theorem executeOperand_inv {i : Instr} {o : Operand} {s t : State} {f : Location → State → State}
    (h : executeOperand i o s f = .next t) :
    ∃ op, opcodeOf i = some op ∧
      t = (f (s.resolve o).1.loc (s.resolve o).2).addCycles (s.cyclesOf op (s.resolve o).1.crossed) :=
  execute_inv h

end Sys2Proof.Machine
end

