-- ==== Sys2Proof/Laws/Frames.lean ====
section
/-! SUPPORT. How the frames of Safety are met: what a run of bus writes keeps, and the frame of each shape of
instruction. -/

namespace Sys2Proof.Machine

/-- A list of bus writes leaves every cell at another address alone. -/
theorem State.busWrites_cell_ne (ws : List (Word × Byte)) (s : State) (b : Word) (h : ∀ w ∈ ws, b ≠ w.1) :
    (s.busWrites ws).cell b = s.cell b := by
  induction ws generalizing s with
  | nil => rfl
  | cons w ws ih =>
    exact (ih (s.busWrite w.1 w.2) fun v hv => h v (List.mem_cons_of_mem _ hv)).trans
      (s.busWrite_cell_ne w.1 b w.2 (h w List.mem_cons_self))

/-- `Stored` from the RAM and the timer that the writes leave. -/
theorem Stored.of_eq {ws : List (Word × Byte)} {u s t : State} (hu : u.ram = s.ram)
    (hr : t.ram = (u.busWrites ws).ram) (ht : t.timer = (u.busWrites ws).timer) : Stored ws u s t := by
  refine ⟨hr, ht, fun b hb => ?_⟩
  have := State.busWrites_cell_ne ws u b hb
  simp only [State.cell] at this ⊢
  rw [hr, this, hu]

/-- Two pushes are two bus writes and the stack pointer moved. -/
theorem State.pushWord_eq (s : State) (w : Word) :
    s.pushWord w =
      { s.busWrites [(stackAddr s.sp, highByte w), (stackAddr (s.sp - 1), lowByte w)] with sp := s.sp - 2 } := by
  simp only [State.pushWord, State.push, State.setSP, State.busWrite_setSP, State.busWrites, List.foldl]
  simp [BitVec.sub_sub]

/-- Three pushes are the stores of an interrupt frame. -/
theorem State.pushFrame_eq (s : State) (pc : Word) (status : Byte) :
    (s.pushWord pc).push status = { s.busWrites (frameStores s.sp pc status) with sp := s.sp - 3 } := by
  rw [State.pushWord_eq]
  simp only [State.push, State.setSP, State.busWrite_setSP, State.busWrites, frameStores, List.foldl]
  simp [BitVec.sub_sub]

/-- `N` and `Z` after `setNZ`. -/
theorem NZOf.of_putNZ {v p : Byte} {t : State} (h : t.p = putNZ v p) : NZOf v t := by
  constructor
  · simp [State.flag_eq, h, BitVec.msb_eq_decide]
  · simp [State.flag_eq, h]
    rw [Bool.eq_iff_iff]
    simp [← BitVec.toNat_inj]

/-- `setNZ` keeps every other flag. -/
theorem FlagsKept.of_putNZ {v : Byte} {s t : State} (h : t.p = putNZ v s.p) : FlagsKept [.n, .z] s t := by
  constructor
  · intro f hf hu
    simp at hf
    simp [State.flag_eq, h, hu, hf]
  · simp [State.flag_eq, h]

/-- The frame of a read-type instruction whose operation writes registers only. -/
theorem ReadFrame.of_registers {i : Instr} {o : Operand} {s u : State} {op : Byte} (ho : opcodeOf i = some op)
    (hu : u = { s.afterLoad o with a := u.a, x := u.x, y := u.y, p := u.p }) :
    ReadFrame i o s (u.addCycles (s.cyclesOf op (s.resolve o).1.crossed)) := by
  rw [hu]
  constructor <;> (try simp [State.cost, ho, State.afterLoad])
  · constructor <;> simp [State.cell]
  · constructor <;> simp

/-- The frame of a read-modify-write of memory whose operation writes `P` only. -/
theorem ModifyFrame.of_status {i : Instr} {o : Operand} {ea : Word} {v : Byte} {s u : State} {op : Byte}
    (ho : opcodeOf i = some op) (hu : u = { s.afterLoad o with p := u.p }) :
    ModifyFrame i o ea v s ((u.storeOperand v (.mem ea)).addCycles (s.cyclesOf op (s.resolve o).1.crossed)) := by
  have hw : u.storeOperand v (.mem ea) = { (s.afterLoad o).busWrite ea v with p := u.p } := by
    change u.busWrite ea v = _
    conv => lhs; rw [hu]
    unfold State.busWrite
    cases (s.afterLoad o).cfg.hooks.find? (fun h => hookCovers h ea && h.hasWrite) with
    | some h => simp only [State.deviceWrite]; cases h.device <;> rfl
    | none => simp only; split <;> rfl
  rw [hw]
  refine ⟨?_, ?_, ?_, Stored.of_eq (by simp [State.afterLoad]) rfl rfl, rfl, ?_⟩
  · constructor <;> simp [State.afterLoad]
  · simp [State.afterLoad]
  · simp [State.afterLoad, State.cost, ho]
  · constructor <;> simp [State.afterLoad]

/-! ### Plain memory -/

/-- A write to a plain address changes the one RAM cell and nothing else. -/
theorem State.busWrite_plain {s : State} {a : Word} (h : plainAddr s.cfg a = true) (v : Byte) :
    s.busWrite a v = { s with ram := Memory.write s.ram a.toNat v } := by
  simp only [plainAddr, Bool.and_eq_true, List.all_eq_true, Bool.not_eq_true'] at h
  have hh : s.cfg.hooks.find? (fun k => hookCovers k a && k.hasWrite) = none := by
    rw [List.find?_eq_none]; intro k hk; simp [h.1 k hk]
  have hr : s.cfg.romWindows.any (fun w => romCovers w a) = false := by
    rw [List.any_eq_false]; intro w hw; simp [h.2 w hw]
  simp [State.busWrite, hh, hr]

/-- A read of a plain address is the RAM cell and changes nothing. -/
theorem State.busRead_plain {s : State} {a : Word} (h : plainAddr s.cfg a = true) : s.busRead a = (s.cell a, s) := by
  simp only [plainAddr, Bool.and_eq_true, List.all_eq_true, Bool.not_eq_true'] at h
  have hr : romByte s.cfg.romWindows a = none := by
    have : ∀ ws : List RomWindow, (∀ w ∈ ws, romCovers w a = false) → romByte ws a = none := by
      intro ws hw
      induction ws with
      | nil => rfl
      | cons w ws ih =>
        simp [romByte, hw w List.mem_cons_self, ih fun v hv => hw v (List.mem_cons_of_mem _ hv)]
    exact this _ h.2
  rw [s.busRead_silent a fun k hk hc => by simp [h.1 k hk] at hc]
  simp [State.underHooks, hr]

end Sys2Proof.Machine
end

