-- ==== Sys2Proof/Laws/PerInstr.lean ====
section
/-! SUPPORT. Per instruction: its mnemonic and its operand build it again, so no operand is lost between them. -/

namespace Sys2Proof.Laws.Rebuild

/-- An official instruction is the one its mnemonic builds from its operand. -/
def Statement (i : Instr) : Prop :=
  i.fallbackByte = none → i.mnemonic.build i.operand = some i

theorem adc (o : Operand) : Statement (.adc o) := fun _ => rfl
theorem and (o : Operand) : Statement (.and o) := fun _ => rfl
theorem asl (o : Operand) : Statement (.asl o) := fun _ => rfl
theorem bcc (o : Operand) : Statement (.bcc o) := fun _ => rfl
theorem bcs (o : Operand) : Statement (.bcs o) := fun _ => rfl
theorem beq (o : Operand) : Statement (.beq o) := fun _ => rfl
theorem bit (o : Operand) : Statement (.bit o) := fun _ => rfl
theorem bmi (o : Operand) : Statement (.bmi o) := fun _ => rfl
theorem bne (o : Operand) : Statement (.bne o) := fun _ => rfl
theorem bpl (o : Operand) : Statement (.bpl o) := fun _ => rfl
theorem brk : Statement .brk := fun _ => rfl
theorem bvc (o : Operand) : Statement (.bvc o) := fun _ => rfl
theorem bvs (o : Operand) : Statement (.bvs o) := fun _ => rfl
theorem clc : Statement .clc := fun _ => rfl
theorem cld : Statement .cld := fun _ => rfl
theorem cli : Statement .cli := fun _ => rfl
theorem clv : Statement .clv := fun _ => rfl
theorem cmp (o : Operand) : Statement (.cmp o) := fun _ => rfl
theorem cpx (o : Operand) : Statement (.cpx o) := fun _ => rfl
theorem cpy (o : Operand) : Statement (.cpy o) := fun _ => rfl
theorem dec (o : Operand) : Statement (.dec o) := fun _ => rfl
theorem dex : Statement .dex := fun _ => rfl
theorem dey : Statement .dey := fun _ => rfl
theorem eor (o : Operand) : Statement (.eor o) := fun _ => rfl
theorem inc (o : Operand) : Statement (.inc o) := fun _ => rfl
theorem inx : Statement .inx := fun _ => rfl
theorem iny : Statement .iny := fun _ => rfl
theorem jmp (o : Operand) : Statement (.jmp o) := fun _ => rfl
theorem jsr (o : Operand) : Statement (.jsr o) := fun _ => rfl
theorem lda (o : Operand) : Statement (.lda o) := fun _ => rfl
theorem ldx (o : Operand) : Statement (.ldx o) := fun _ => rfl
theorem ldy (o : Operand) : Statement (.ldy o) := fun _ => rfl
theorem lsr (o : Operand) : Statement (.lsr o) := fun _ => rfl
theorem nop : Statement .nop := fun _ => rfl
theorem ora (o : Operand) : Statement (.ora o) := fun _ => rfl
theorem pha : Statement .pha := fun _ => rfl
theorem php : Statement .php := fun _ => rfl
theorem pla : Statement .pla := fun _ => rfl
theorem plp : Statement .plp := fun _ => rfl
theorem rol (o : Operand) : Statement (.rol o) := fun _ => rfl
theorem ror (o : Operand) : Statement (.ror o) := fun _ => rfl
theorem rti : Statement .rti := fun _ => rfl
theorem rts : Statement .rts := fun _ => rfl
theorem sbc (o : Operand) : Statement (.sbc o) := fun _ => rfl
theorem sec : Statement .sec := fun _ => rfl
theorem sed : Statement .sed := fun _ => rfl
theorem sei : Statement .sei := fun _ => rfl
theorem sta (o : Operand) : Statement (.sta o) := fun _ => rfl
theorem stx (o : Operand) : Statement (.stx o) := fun _ => rfl
theorem sty (o : Operand) : Statement (.sty o) := fun _ => rfl
theorem tax : Statement .tax := fun _ => rfl
theorem tay : Statement .tay := fun _ => rfl
theorem tsx : Statement .tsx := fun _ => rfl
theorem txa : Statement .txa := fun _ => rfl
theorem txs : Statement .txs := fun _ => rfl
theorem tya : Statement .tya := fun _ => rfl
theorem unofficialNop (opcode : Byte) : Statement (.unofficialNop opcode) := nofun

end Sys2Proof.Laws.Rebuild
end

