-- ==== Sys2Proof/Laws/Step.lean ====
section
/-! SUPPORT. All a step can have done, by cases. -/

namespace Sys2Proof.Machine

/-- A fetch moves `PC` past the instruction and can advance the external devices; nothing else. -/
theorem State.fetchInstr_shape (s : State) :
    s.fetchInstr.2 = { s with pc := s.fetchInstr.2.pc, io := s.fetchInstr.2.io } := by
  simp only [State.fetchInstr]
  split
  · rw [s.fetchByte_shape]
  · rw [s.fetchByte.2.fetchByte_shape, s.fetchByte_shape]
  · rw [s.fetchByte.2.fetchByte.2.fetchByte_shape, s.fetchByte.2.fetchByte_shape, s.fetchByte_shape]

theorem State.length_fetchBytes (s : State) (n : Nat) : (s.fetchBytes n).1.length = n := by
  induction n generalizing s with
  | zero => rfl
  | succ n ih => simp [State.fetchBytes, ih]

/-- The fetch of an instruction is the decoding of the bytes at `PC`, when those decode with nothing left. -/
theorem State.fetchInstr_of_decode {s : State} {n : Nat} {i : Instr} (h : decode (s.fetchBytes n).1 = .instr i []) :
    s.fetchInstr = (i, (s.fetchBytes n).2) := by
  have none_left : ∀ (t : State) (k : Nat), (t.fetchBytes k).1 = [] → k = 0 := fun t k hk => by
    simpa [hk] using (t.length_fetchBytes k).symm
  match n with
  | 0 => simp [State.fetchBytes, decode] at h
  | n + 1 =>
    simp only [State.fetchBytes, decode] at h
    simp only [State.fetchInstr, State.fetchBytes]
    split at h
    · next h0 =>
      simp only [Decoded.instr.injEq] at h
      obtain rfl := none_left _ _ h.2
      simp only [h0, h.1, State.fetchBytes]
    · next h0 h1 =>
      simp only [Decoded.instr.injEq] at h
      match n with
      | 0 => simp [State.fetchBytes] at h1
      | n + 1 =>
        simp only [State.fetchBytes, List.cons.injEq] at h1
        obtain rfl := none_left _ _ (h1.2.trans h.2)
        simp only [h0, h.1, h1.1, State.fetchBytes]
    · next h0 h1 =>
      simp only [Decoded.instr.injEq] at h
      match n with
      | 0 => simp [State.fetchBytes] at h1
      | 1 => simp [State.fetchBytes] at h1
      | n + 2 =>
        simp only [State.fetchBytes, List.cons.injEq] at h1
        obtain rfl := none_left _ _ (h1.2.2.trans h.2)
        simp only [h0, h.1, h1.1, h1.2.1, State.fetchBytes]
    · cases h

/-- What a CPU step that answers a next state did (40 R90). -/
theorem State.cpuStep_inv {s t : State} (h : s.cpuStep = .next t) :
    s.running = true ∧
    (s.pendingNMI = true ∧ t = (s.setPendingNMI false).serviceInterrupt nmiVector ∨
      s.pendingNMI = false ∧ s.takesIRQ = true ∧ t = (s.setPendingIRQ false).serviceInterrupt irqVector ∨
      s.pendingNMI = false ∧ s.takesIRQ = false ∧ exec s.fetchInstr.1 s.fetchInstr.2 = .next t) := by
  unfold State.cpuStep at h
  split at h
  · cases h
  · next hr =>
    refine ⟨by simpa using hr, ?_⟩
    split at h
    · next hn => cases h; exact .inl ⟨hn, rfl⟩
    · next hn =>
      split at h
      · next hi => cases h; exact .inr (.inl ⟨by simpa using hn, hi, rfl⟩)
      · next hi => exact .inr (.inr ⟨by simpa using hn, by simpa using hi, h⟩)

theorem tickAfter_inv {before : Nat} {o : Host.Outcome State Fault Refusal} {t : State}
    (h : tickAfter before o = .next t) : ∃ u, o = .next u ∧ t = u.tick (u.cycleCounter - before) := by
  cases o with
  | next u => cases h; exact ⟨u, rfl, rfl⟩
  | fault f => cases h
  | refused r => cases h

/-- What a step that answers a next state did: a CPU step and a tick, a CPU step alone, or a call that executes
nothing. -/
theorem step_inv {s t : State} (h : step s = .next t) :
    configWf s.cfg = true ∧ ∃ u : State, u = { s with inputs := u.inputs } ∧
      ((∃ v, u.cpuStep = .next v ∧ (t = v.tick (v.cycleCounter - s.cycleCounter) ∨ t = v)) ∨
        (∃ n, t = u.tick n) ∨ t = u.nmi ∨ t = u.irq ∨ t = u.doReset) := by
  unfold step at h
  split at h
  · next hc =>
    refine ⟨hc, ?_⟩
    unfold State.advance at h
    split at h
    · obtain ⟨v, hv, ht⟩ := tickAfter_inv h
      exact ⟨s, rfl, .inl ⟨v, hv, .inl ht⟩⟩
    · next call later hl =>
      refine ⟨{ s with inputs := later }, rfl, ?_⟩
      cases call with
      | system => obtain ⟨v, hv, ht⟩ := tickAfter_inv h; exact .inl ⟨v, hv, .inl ht⟩
      | step => exact .inl ⟨t, h, .inr rfl⟩
      | tick n => cases h; exact .inr (.inl ⟨n, rfl⟩)
      | nmi => cases h; exact .inr (.inr (.inl rfl))
      | irq => cases h; exact .inr (.inr (.inr (.inl rfl)))
      | reset => cases h; exact .inr (.inr (.inr (.inr rfl)))
  · cases h

end Sys2Proof.Machine
end

