-- ==== Sys2Proof/Tests/Slice0.lean ====
section
/-! SUPPORT. The model's own tests. Expected results are the spec's: 30_encoding.md for the decoding, the vectors
of 95_test_vectors.md (whose conventions `startAt` follows) for single steps, the rules themselves for the rest. -/

namespace Sys2Proof.Tests

open Sys2Proof Sys2Proof.Machine

/-! ### The well-formedness checks (WellFormed.lean, Bus.lean): for each, a term that it refuses -/

/-- Check 1: `STA` has no immediate form (41 R123), `INC` no accumulator form (42 R148), and so on. -/
theorem test_wf_refuses_missing_forms :
    (Instr.sta (.imm 0)).formExists = false ∧ (Instr.inc .acc).formExists = false ∧
    (Instr.ldx (.zpX 0)).formExists = false ∧ (Instr.jmp (.absX 0)).formExists = false ∧
    (Instr.bne (.abs 0)).formExists = false ∧ (Instr.lda (.abs 0)).formExists = true := by decide

/-- Check 2: `0xEA` is official, so it is no byte of the fallback (30 R75). -/
theorem test_wf_refuses_an_official_fallback_byte :
    (Instr.unofficialNop 0xEA).fallbackIsUnofficial = false ∧ (Instr.unofficialNop 0xFF).fallbackIsUnofficial = true := by
  decide

/-- ROM windows (20 R44, 93 U2): one past the end of the address space, two that overlap. -/
theorem test_config_refuses_bad_rom_windows :
    romsWf [⟨0xFFFF, [1, 2]⟩] = false ∧ romsWf [⟨0x9000, [1, 2]⟩, ⟨0x9001, [3]⟩] = false ∧
    romsWf [⟨0xFFFE, [1, 2]⟩, ⟨0x9001, [3]⟩] = true := by decide

/-- Hooks (20 R45, 93 U3, 60 R243): inverted, past the end, overlapping, a timer of seven addresses, two timers, a timer
without its write handler (log 10); a timer without a read handler is accepted. -/
theorem test_config_refuses_bad_hooks :
    hooksWf [⟨5, 4, .external 0, true, true⟩] = false ∧ hooksWf [⟨5, 0x10000, .external 0, true, true⟩] = false ∧
    hooksWf [⟨5, 9, .external 0, true, true⟩, ⟨9, 9, .external 1, true, true⟩] = false ∧
    hooksWf [⟨5, 11, .timer, true, true⟩] = false ∧ hooksWf [timerHook 0, timerHook 8] = false ∧
    hooksWf [⟨0, 7, .timer, true, false⟩] = false ∧ hooksWf [⟨0, 7, .timer, false, true⟩] = true ∧
    hooksWf [timerHook 0, ⟨8, 0xFFFF, .external 0, true, true⟩] = true := by decide

/-- The latch registers are distinct (92 D3); every opcode has at least 2 cycles (70 R280). -/
theorem test_config_refuses_bad_parameters :
    configWf { Config.default with timerRegLo := 5 } = false ∧
    configWf { Config.default with cycles := some [⟨2, false⟩] } = false ∧
    configWf Config.default = true := by decide

theorem test_config_wants_two_cycles_each :
    cyclesWf (some (List.replicate 256 ⟨2, false⟩)) = true ∧ cyclesWf (some (List.replicate 256 ⟨1, false⟩)) = false := by
  decide +kernel

/-- RAM's canonical form: no cell at its default, none out of order, none out of range. -/
theorem test_memory_wf_refuses_other_forms :
    Memory.wf [(3, 0)] = false ∧ Memory.wf [(3, 1), (3, 2)] = false ∧ Memory.wf [(65536, 1)] = false ∧
    Memory.wf [(3, 1), (65535, 2)] = true := by decide

/-! ### Decoding: every form's bytes, the opcode written out from 30 R74 (operands 0x34, 0x12) -/

/-- Every row decodes to its instruction with nothing left, and the instruction encodes to the row. -/
def decodesAll (rows : List (List Byte × Instr)) : Bool :=
  rows.all fun r => decide (decode r.1 = .instr r.2 []) && decide (encode r.2 = r.1)

theorem test_decode_loads :
    decodesAll [
      ([0b10100001, 0x34], .lda (.indX 0x34)), ([0b10100101, 0x34], .lda (.zp 0x34)),
      ([0b10101001, 0x34], .lda (.imm 0x34)), ([0b10101101, 0x34, 0x12], .lda (.abs 0x1234)),
      ([0b10110001, 0x34], .lda (.indY 0x34)), ([0b10110101, 0x34], .lda (.zpX 0x34)),
      ([0b10111001, 0x34, 0x12], .lda (.absY 0x1234)), ([0b10111101, 0x34, 0x12], .lda (.absX 0x1234)),
      ([0b10100010, 0x34], .ldx (.imm 0x34)), ([0b10100110, 0x34], .ldx (.zp 0x34)),
      ([0b10101110, 0x34, 0x12], .ldx (.abs 0x1234)), ([0b10110110, 0x34], .ldx (.zpY 0x34))] = true ∧
    decodesAll [
      ([0b10111110, 0x34, 0x12], .ldx (.absY 0x1234)), ([0b10100000, 0x34], .ldy (.imm 0x34)),
      ([0b10100100, 0x34], .ldy (.zp 0x34)), ([0b10101100, 0x34, 0x12], .ldy (.abs 0x1234)),
      ([0b10110100, 0x34], .ldy (.zpX 0x34)), ([0b10111100, 0x34, 0x12], .ldy (.absX 0x1234))] = true := by
  decide

theorem test_decode_stores_and_transfers :
    decodesAll [
      ([0b10000001, 0x34], .sta (.indX 0x34)), ([0b10000101, 0x34], .sta (.zp 0x34)),
      ([0b10001101, 0x34, 0x12], .sta (.abs 0x1234)), ([0b10010001, 0x34], .sta (.indY 0x34)),
      ([0b10010101, 0x34], .sta (.zpX 0x34)), ([0b10011001, 0x34, 0x12], .sta (.absY 0x1234)),
      ([0b10011101, 0x34, 0x12], .sta (.absX 0x1234)), ([0b10000110, 0x34], .stx (.zp 0x34)),
      ([0b10001110, 0x34, 0x12], .stx (.abs 0x1234)), ([0b10010110, 0x34], .stx (.zpY 0x34)),
      ([0b10000100, 0x34], .sty (.zp 0x34)), ([0b10001100, 0x34, 0x12], .sty (.abs 0x1234))] = true ∧
    decodesAll [
      ([0b10010100, 0x34], .sty (.zpX 0x34)), ([0b10101010], .tax),
      ([0b10101000], .tay), ([0b10001010], .txa),
      ([0b10011000], .tya), ([0b10111010], .tsx),
      ([0b10011010], .txs)] = true := by
  decide

theorem test_decode_adc_sbc :
    decodesAll [
      ([0b01100001, 0x34], .adc (.indX 0x34)), ([0b01100101, 0x34], .adc (.zp 0x34)),
      ([0b01101001, 0x34], .adc (.imm 0x34)), ([0b01101101, 0x34, 0x12], .adc (.abs 0x1234)),
      ([0b01110001, 0x34], .adc (.indY 0x34)), ([0b01110101, 0x34], .adc (.zpX 0x34)),
      ([0b01111001, 0x34, 0x12], .adc (.absY 0x1234)), ([0b01111101, 0x34, 0x12], .adc (.absX 0x1234)),
      ([0b11100001, 0x34], .sbc (.indX 0x34)), ([0b11100101, 0x34], .sbc (.zp 0x34)),
      ([0b11101001, 0x34], .sbc (.imm 0x34)), ([0b11101101, 0x34, 0x12], .sbc (.abs 0x1234))] = true ∧
    decodesAll [
      ([0b11110001, 0x34], .sbc (.indY 0x34)), ([0b11110101, 0x34], .sbc (.zpX 0x34)),
      ([0b11111001, 0x34, 0x12], .sbc (.absY 0x1234)), ([0b11111101, 0x34, 0x12], .sbc (.absX 0x1234))] = true := by
  decide

theorem test_decode_compares :
    decodesAll [
      ([0b11000001, 0x34], .cmp (.indX 0x34)), ([0b11000101, 0x34], .cmp (.zp 0x34)),
      ([0b11001001, 0x34], .cmp (.imm 0x34)), ([0b11001101, 0x34, 0x12], .cmp (.abs 0x1234)),
      ([0b11010001, 0x34], .cmp (.indY 0x34)), ([0b11010101, 0x34], .cmp (.zpX 0x34)),
      ([0b11011001, 0x34, 0x12], .cmp (.absY 0x1234)), ([0b11011101, 0x34, 0x12], .cmp (.absX 0x1234)),
      ([0b11100000, 0x34], .cpx (.imm 0x34)), ([0b11100100, 0x34], .cpx (.zp 0x34)),
      ([0b11101100, 0x34, 0x12], .cpx (.abs 0x1234)), ([0b11000000, 0x34], .cpy (.imm 0x34))] = true ∧
    decodesAll [
      ([0b11000100, 0x34], .cpy (.zp 0x34)), ([0b11001100, 0x34, 0x12], .cpy (.abs 0x1234))] = true := by
  decide

theorem test_decode_counts :
    decodesAll [
      ([0b11100110, 0x34], .inc (.zp 0x34)), ([0b11101110, 0x34, 0x12], .inc (.abs 0x1234)),
      ([0b11110110, 0x34], .inc (.zpX 0x34)), ([0b11111110, 0x34, 0x12], .inc (.absX 0x1234)),
      ([0b11000110, 0x34], .dec (.zp 0x34)), ([0b11001110, 0x34, 0x12], .dec (.abs 0x1234)),
      ([0b11010110, 0x34], .dec (.zpX 0x34)), ([0b11011110, 0x34, 0x12], .dec (.absX 0x1234)),
      ([0b11101000], .inx), ([0b11001000], .iny),
      ([0b11001010], .dex), ([0b10001000], .dey)] = true := by
  decide

theorem test_decode_logic :
    decodesAll [
      ([0b00100001, 0x34], .and (.indX 0x34)), ([0b00100101, 0x34], .and (.zp 0x34)),
      ([0b00101001, 0x34], .and (.imm 0x34)), ([0b00101101, 0x34, 0x12], .and (.abs 0x1234)),
      ([0b00110001, 0x34], .and (.indY 0x34)), ([0b00110101, 0x34], .and (.zpX 0x34)),
      ([0b00111001, 0x34, 0x12], .and (.absY 0x1234)), ([0b00111101, 0x34, 0x12], .and (.absX 0x1234)),
      ([0b00000001, 0x34], .ora (.indX 0x34)), ([0b00000101, 0x34], .ora (.zp 0x34)),
      ([0b00001001, 0x34], .ora (.imm 0x34)), ([0b00001101, 0x34, 0x12], .ora (.abs 0x1234))] = true ∧
    decodesAll [
      ([0b00010001, 0x34], .ora (.indY 0x34)), ([0b00010101, 0x34], .ora (.zpX 0x34)),
      ([0b00011001, 0x34, 0x12], .ora (.absY 0x1234)), ([0b00011101, 0x34, 0x12], .ora (.absX 0x1234)),
      ([0b01000001, 0x34], .eor (.indX 0x34)), ([0b01000101, 0x34], .eor (.zp 0x34)),
      ([0b01001001, 0x34], .eor (.imm 0x34)), ([0b01001101, 0x34, 0x12], .eor (.abs 0x1234)),
      ([0b01010001, 0x34], .eor (.indY 0x34)), ([0b01010101, 0x34], .eor (.zpX 0x34)),
      ([0b01011001, 0x34, 0x12], .eor (.absY 0x1234)), ([0b01011101, 0x34, 0x12], .eor (.absX 0x1234))] = true ∧
    decodesAll [
      ([0b00100100, 0x34], .bit (.zp 0x34)), ([0b00101100, 0x34, 0x12], .bit (.abs 0x1234))] = true := by
  decide

theorem test_decode_shifts :
    decodesAll [
      ([0b00000110, 0x34], .asl (.zp 0x34)), ([0b00001010], .asl .acc),
      ([0b00001110, 0x34, 0x12], .asl (.abs 0x1234)), ([0b00010110, 0x34], .asl (.zpX 0x34)),
      ([0b00011110, 0x34, 0x12], .asl (.absX 0x1234)), ([0b01000110, 0x34], .lsr (.zp 0x34)),
      ([0b01001010], .lsr .acc), ([0b01001110, 0x34, 0x12], .lsr (.abs 0x1234)),
      ([0b01010110, 0x34], .lsr (.zpX 0x34)), ([0b01011110, 0x34, 0x12], .lsr (.absX 0x1234)),
      ([0b00100110, 0x34], .rol (.zp 0x34)), ([0b00101010], .rol .acc)] = true ∧
    decodesAll [
      ([0b00101110, 0x34, 0x12], .rol (.abs 0x1234)), ([0b00110110, 0x34], .rol (.zpX 0x34)),
      ([0b00111110, 0x34, 0x12], .rol (.absX 0x1234)), ([0b01100110, 0x34], .ror (.zp 0x34)),
      ([0b01101010], .ror .acc), ([0b01101110, 0x34, 0x12], .ror (.abs 0x1234)),
      ([0b01110110, 0x34], .ror (.zpX 0x34)), ([0b01111110, 0x34, 0x12], .ror (.absX 0x1234))] = true := by
  decide

theorem test_decode_control_flow :
    decodesAll [
      ([0b01001100, 0x34, 0x12], .jmp (.abs 0x1234)), ([0b01101100, 0x34, 0x12], .jmp (.ind 0x1234)),
      ([0b00100000, 0x34, 0x12], .jsr (.abs 0x1234)), ([0b01100000], .rts),
      ([0b00010000, 0x34], .bpl (.rel 0x34)), ([0b00110000, 0x34], .bmi (.rel 0x34)),
      ([0b01010000, 0x34], .bvc (.rel 0x34)), ([0b01110000, 0x34], .bvs (.rel 0x34)),
      ([0b10010000, 0x34], .bcc (.rel 0x34)), ([0b10110000, 0x34], .bcs (.rel 0x34)),
      ([0b11010000, 0x34], .bne (.rel 0x34)), ([0b11110000, 0x34], .beq (.rel 0x34))] = true := by
  decide

theorem test_decode_stack_flags_system :
    decodesAll [
      ([0b01001000], .pha), ([0b00001000], .php),
      ([0b01101000], .pla), ([0b00101000], .plp),
      ([0b00011000], .clc), ([0b00111000], .sec),
      ([0b01011000], .cli), ([0b01111000], .sei),
      ([0b11011000], .cld), ([0b11111000], .sed),
      ([0b10111000], .clv), ([0b11101010], .nop)] = true ∧
    decodesAll [
      ([0b00000000], .brk), ([0b01000000], .rti)] = true := by
  decide

/-- The fallback, at both ends of its list (30 R75, 92 D18): one byte, the next byte is not consumed. -/
theorem test_decode_fallback :
    decode [0b00000010, 0x34] = .instr (.unofficialNop 0x02) [0x34] ∧
    decode [0b11111111] = .instr (.unofficialNop 0xFF) [] ∧
    encode (.unofficialNop 0x02) = [0b00000010] := by decide

/-- A truncated instruction is rejected by name, and so is no byte at all. -/
theorem test_decode_rejects_truncation :
    decode [] = .reject .noOpcode ∧ decode [0b10101101, 0x34] = .reject (.operandMissing 0b10101101) := by decide

/-- The opcode table's numbering (the first byte is the low one), and operand bytes of zeros. -/
theorem test_decode_table_words :
    decodeTableWord 24 0x1234AD = some (.lda (.abs 0x1234)) ∧ decodeTableWord 16 0xFBD0 = some (.bne (.rel 0xFB)) ∧
    decodeTableWord 8 0xAD = some (.lda (.abs 0)) := by decide

/-! ### One step per vector of 95_test_vectors.md -/

/-- The start state of the vectors: no hooks, no ROM, the listed RAM, the code at `pc`. -/
def startAt (pc : Word) (code : List Byte) (ram : List Host.Cell) : State :=
  State.placeBytes
    { State.reset with
      pc := pc, cfg := { Config.default with hooks := [] }
      ram := ram.foldl (fun m c => Memory.write m c.1 c.2) [] }
    pc code

/-- The step from `s` answers a next state, which passes the check. -/
def lands (s : State) (check : State → Bool) : Bool :=
  match step s with
  | .next t => check t
  | .fault _ => false
  | .refused _ => false

/-- S3. -/
theorem test_lda_page_cross :
    lands { startAt 0x0200 [0xBD, 0xF8, 0x10] [(0x1100, 0x80)] with x := 0x08 } (fun t =>
      t.a == 0x80 && t.p == 0xA4 && t.pc == 0x0203 && t.cycleCounter == 5) = true := by decide

/-- V-ADDRESSING: the pointer at 0xFF takes its high byte from 0x00. -/
theorem test_lda_ptr_wrap :
    lands { startAt 0x0200 [0xA1, 0xFC] [(0xFF, 0x34), (0x00, 0x12), (0x100, 0x99), (0x1234, 0xA5)] with x := 0x03 } (fun t =>
      t.a == 0xA5 && t.p == 0xA4) = true := by decide

/-- V-LOAD. -/
theorem test_ldx_zpy :
    lands { startAt 0x0200 [0xB6, 0xF0] [(0x10, 0x7F)] with y := 0x20 } (fun t =>
      t.x == 0x7F && t.p == 0x24 && t.cycleCounter == 4) = true := by decide

/-- V-LOAD. -/
theorem test_ldy :
    lands (startAt 0x0200 [0xA0, 0xFF] []) (fun t =>
      t.y == 0xFF && t.p == 0xA4) = true := by decide

/-- V-STORE. -/
theorem test_sta_indy :
    lands { startAt 0x0200 [0x91, 0x20] [(0x20, 0xFF), (0x21, 0x12)] with a := 0x5A, y := 0x01 } (fun t =>
      t.cell 0x1300 == 0x5A && t.p == 0x24 && t.cycleCounter == 6) = true := by decide

/-- V-STORE. -/
theorem test_sta_no_cross_cycle :
    lands { startAt 0x0200 [0x9D, 0xF8, 0x10] [] with a := 0x77, x := 0x08 } (fun t =>
      t.cell 0x1100 == 0x77 && t.cycleCounter == 5) = true := by decide

/-- V-STORE. -/
theorem test_stx_zpy_wrap :
    lands { startAt 0x0200 [0x96, 0xFF] [] with x := 0x11, y := 0x02 } (fun t =>
      t.cell 0x0001 == 0x11 && t.cycleCounter == 4) = true := by decide

/-- V-STORE. -/
theorem test_sty :
    lands { startAt 0x0200 [0x8C, 0x00, 0x80] [] with y := 0x41 } (fun t =>
      t.cell 0x8000 == 0x41 && t.cycleCounter == 4) = true := by decide

/-- V-TRANSFER. -/
theorem test_tax :
    lands { startAt 0x0200 [0xAA] [] with a := 0x00, x := 0x05 } (fun t =>
      t.x == 0x00 && t.p == 0x26) = true := by decide

/-- V-TRANSFER. -/
theorem test_tay :
    lands { startAt 0x0200 [0xA8] [] with a := 0x90 } (fun t =>
      t.y == 0x90 && t.p == 0xA4) = true := by decide

/-- V-TRANSFER. -/
theorem test_txa :
    lands { startAt 0x0200 [0x8A] [] with x := 0x7F, a := 0x01 } (fun t =>
      t.a == 0x7F && t.p == 0x24) = true := by decide

/-- V-TRANSFER. -/
theorem test_tya :
    lands { startAt 0x0200 [0x98] [] with y := 0x00, a := 0x01 } (fun t =>
      t.a == 0x00 && t.p == 0x26) = true := by decide

/-- V-TRANSFER. -/
theorem test_tsx :
    lands (startAt 0x0200 [0xBA] []) (fun t =>
      t.x == 0xFD && t.p == 0xA4) = true := by decide

/-- V-TRANSFER. -/
theorem test_txs_no_flags :
    lands { startAt 0x0200 [0x9A] [] with x := 0xFF } (fun t =>
      t.sp == 0xFF && t.p == 0x24) = true := by decide

/-- V-ADC. -/
theorem test_adc_overflow :
    lands { startAt 0x0200 [0x69, 0x90] [] with a := 0xD0 } (fun t =>
      t.a == 0x60 && t.p == 0x65) = true := by decide

/-- V-ADC decimal. -/
theorem test_adc_decimal :
    lands { startAt 0x0200 [0x69, 0x46] [] with a := 0x58, p := 0x2D } (fun t =>
      t.a == 0x05 && t.p == 0x6D) = true := by decide

/-- V-SBC. -/
theorem test_sbc_overflow :
    lands { startAt 0x0200 [0xE9, 0x01] [] with a := 0x80, p := 0x25 } (fun t =>
      t.a == 0x7F && t.p == 0x65) = true := by decide

/-- V-SBC decimal. -/
theorem test_sbc_decimal :
    lands { startAt 0x0200 [0xE9, 0x01] [] with a := 0x50, p := 0x2D } (fun t =>
      t.a == 0xB5 && t.p == 0xAD) = true := by decide

/-- V-CMP. -/
theorem test_cmp_keeps_v_d :
    lands { startAt 0x0200 [0xC9, 0x00] [] with a := 0x80, p := 0x6C } (fun t =>
      t.p == 0xED && t.a == 0x80) = true := by decide

/-- V-CMP. -/
theorem test_cpx :
    lands { startAt 0x0200 [0xE0, 0x05] [] with x := 0x03 } (fun t =>
      t.p == 0xA4 && t.x == 0x03) = true := by decide

/-- V-CMP. -/
theorem test_cpy_zp :
    lands { startAt 0x0200 [0xC4, 0x10] [(0x10, 0x80)] with y := 0x7F } (fun t =>
      t.p == 0xA4 && t.cycleCounter == 3) = true := by decide

/-- S3. -/
theorem test_inc_page_cross :
    lands { startAt 0x0200 [0xFE, 0xF8, 0x10] [(0x1100, 0x7F)] with x := 0x08 } (fun t =>
      t.cell 0x1100 == 0x80 && t.p == 0xA4 && t.cycleCounter == 7) = true := by decide

/-- V-INC. -/
theorem test_inc_zpx_wrap :
    lands { startAt 0x0200 [0xF6, 0xFF] [(0x04, 0xFE)] with x := 0x05 } (fun t =>
      t.cell 0x0004 == 0xFF && t.p == 0xA4 && t.cycleCounter == 6) = true := by decide

/-- V-DEC. -/
theorem test_dec :
    lands (startAt 0x0200 [0xCE, 0x00, 0x03] []) (fun t =>
      t.cell 0x0300 == 0xFF && t.p == 0xA4 && t.cycleCounter == 6) = true := by decide

/-- V-INC. -/
theorem test_inx_keeps_c :
    lands { startAt 0x0200 [0xE8] [] with x := 0x7F, p := 0x25 } (fun t =>
      t.x == 0x80 && t.p == 0xA5) = true := by decide

/-- V-INC. -/
theorem test_iny :
    lands { startAt 0x0200 [0xC8] [] with y := 0x7F } (fun t =>
      t.y == 0x80 && t.p == 0xA4) = true := by decide

/-- V-DEC. -/
theorem test_dex_keeps_v_c :
    lands { startAt 0x0200 [0xCA] [] with x := 0x00, p := 0xE5 } (fun t =>
      t.x == 0xFF && t.p == 0xE5) = true := by decide

/-- V-DEC. -/
theorem test_dey :
    lands (startAt 0x0200 [0x88] []) (fun t =>
      t.y == 0xFF && t.p == 0xA4) = true := by decide

/-- V-LOGIC. -/
theorem test_and :
    lands { startAt 0x0200 [0x29, 0xFF] [] with a := 0x80 } (fun t =>
      t.a == 0x80 && t.p == 0xA4) = true := by decide

/-- V-LOGIC. -/
theorem test_ora :
    lands { startAt 0x0200 [0x09, 0x80] [] with a := 0x01 } (fun t =>
      t.a == 0x81 && t.p == 0xA4) = true := by decide

/-- V-LOGIC. -/
theorem test_eor :
    lands { startAt 0x0200 [0x49, 0x55] [] with a := 0x55 } (fun t =>
      t.a == 0x00 && t.p == 0x26) = true := by decide

/-- V-LOGIC. -/
theorem test_bit_from_memory :
    lands { startAt 0x0200 [0x24, 0x10] [(0x10, 0xC0)] with a := 0x01 } (fun t =>
      t.p == 0xE6 && t.a == 0x01 && t.cycleCounter == 3) = true := by decide

/-- V-SHIFT. -/
theorem test_asl_acc :
    lands { startAt 0x0200 [0x0A] [] with a := 0x81 } (fun t =>
      t.a == 0x02 && t.p == 0x25) = true := by decide

/-- V-SHIFT: the carry in is ignored. -/
theorem test_lsr_acc :
    lands { startAt 0x0200 [0x4A] [] with a := 0x80, p := 0x25 } (fun t =>
      t.a == 0x40 && t.p == 0x24) = true := by decide

/-- V-SHIFT. -/
theorem test_lsr_zp :
    lands (startAt 0x0200 [0x46, 0x10] [(0x10, 0x03)]) (fun t =>
      t.cell 0x0010 == 0x01 && t.p == 0x25 && t.cycleCounter == 5) = true := by decide

/-- V-SHIFT. -/
theorem test_rol_acc :
    lands { startAt 0x0200 [0x2A] [] with a := 0x80, p := 0x25 } (fun t =>
      t.a == 0x01 && t.p == 0x25) = true := by decide

/-- V-SHIFT. -/
theorem test_rol_zp :
    lands (startAt 0x0200 [0x26, 0x10] [(0x10, 0xFF)]) (fun t =>
      t.cell 0x0010 == 0xFE && t.p == 0xA5 && t.cycleCounter == 5) = true := by decide

/-- V-SHIFT. -/
theorem test_ror_acc :
    lands { startAt 0x0200 [0x6A] [] with a := 0x01, p := 0x25 } (fun t =>
      t.a == 0x80 && t.p == 0xA5) = true := by decide

/-- S3. -/
theorem test_ror_page_cross :
    lands { startAt 0x0200 [0x7E, 0xF8, 0x10] [(0x1100, 0x02)] with x := 0x08 } (fun t =>
      t.cell 0x1100 == 0x01 && t.p == 0x24 && t.cycleCounter == 7) = true := by decide

/-- V-CONTROL. -/
theorem test_jmp :
    lands (startAt 0x0200 [0x4C, 0x00, 0xC0] []) (fun t =>
      t.pc == 0xC000 && t.cycleCounter == 3) = true := by decide

/-- S4. -/
theorem test_jmp_indirect_wrap :
    lands (startAt 0x0200 [0x6C, 0xFF, 0x30] [(0x3000, 0x80), (0x3100, 0x40)]) (fun t =>
      t.pc == 0x8000 && t.cycleCounter == 5) = true := by decide

/-- V-CONTROL: the stack wraps inside one JSR. -/
theorem test_jsr :
    lands { startAt 0x0200 [0x20, 0x34, 0x12] [] with sp := 0x00 } (fun t =>
      t.cell 0x0100 == 0x02 && t.cell 0x01FF == 0x02 && t.sp == 0xFE && t.pc == 0x1234) = true := by decide

/-- V-CONTROL. -/
theorem test_rts :
    lands { startAt 0x0300 [0x60] [(0x01FC, 0x02), (0x01FD, 0x02)] with sp := 0xFB } (fun t =>
      t.pc == 0x0203 && t.sp == 0xFD && t.cycleCounter == 6) = true := by decide

/-- V-CONTROL. -/
theorem test_rts_wrap :
    lands { startAt 0x0300 [0x60] [(0x0100, 0xFF), (0x0101, 0xFF)] with sp := 0xFF } (fun t =>
      t.pc == 0x0000 && t.sp == 0x01) = true := by decide

/-- V-CONTROL. -/
theorem test_bpl :
    lands (startAt 0x0200 [0x10, 0x05] []) (fun t =>
      t.pc == 0x0207 && t.cycleCounter == 3) = true := by decide

/-- V-CONTROL. -/
theorem test_bmi_backward :
    lands { startAt 0x0210 [0x30, 0xFC] [] with p := 0xA4 } (fun t =>
      t.pc == 0x020E && t.cycleCounter == 3) = true := by decide

/-- V-CONTROL. -/
theorem test_bvc :
    lands (startAt 0x0200 [0x50, 0x10] []) (fun t =>
      t.pc == 0x0212 && t.cycleCounter == 3) = true := by decide

/-- V-CONTROL. -/
theorem test_bvs_not_taken :
    lands (startAt 0x0200 [0x70, 0x10] []) (fun t =>
      t.pc == 0x0202 && t.cycleCounter == 2) = true := by decide

/-- V-CONTROL. -/
theorem test_bcc_page_change :
    lands (startAt 0x02FD [0x90, 0x02] []) (fun t =>
      t.pc == 0x0301 && t.cycleCounter == 4) = true := by decide

/-- V-CONTROL. -/
theorem test_bcs :
    lands { startAt 0x0200 [0xB0, 0x7F] [] with p := 0x25 } (fun t =>
      t.pc == 0x0281 && t.cycleCounter == 3) = true := by decide

/-- V-CONTROL. -/
theorem test_bne :
    lands (startAt 0x0203 [0xD0, 0xFD] []) (fun t =>
      t.pc == 0x0202 && t.cycleCounter == 3) = true := by decide

/-- V-CONTROL. -/
theorem test_beq :
    lands { startAt 0x0280 [0xF0, 0x80] [] with p := 0x26 } (fun t =>
      t.pc == 0x0202 && t.cycleCounter == 3) = true := by decide

/-- V-STACK. -/
theorem test_pha_wrap :
    lands { startAt 0x0200 [0x48] [] with a := 0xAB, sp := 0x00 } (fun t =>
      t.cell 0x0100 == 0xAB && t.sp == 0xFF) = true := by decide

/-- V-STACK. -/
theorem test_php :
    lands (startAt 0x0200 [0x08] []) (fun t =>
      t.cell 0x01FD == 0x34 && t.sp == 0xFC && t.p == 0x24 && t.cycleCounter == 3) = true := by decide

/-- V-STACK. -/
theorem test_pla_wrap :
    lands { startAt 0x0200 [0x68] [(0x0100, 0xCD)] with sp := 0xFF } (fun t =>
      t.a == 0xCD && t.p == 0xA4 && t.sp == 0x00) = true := by decide

/-- V-STACK. -/
theorem test_plp_drops_break :
    lands { startAt 0x0200 [0x28] [(0x01FD, 0x10)] with sp := 0xFC } (fun t =>
      t.p == 0x20 && t.sp == 0xFD && t.cycleCounter == 4) = true := by decide

/-- V-STACK. -/
theorem test_plp_all :
    lands { startAt 0x0200 [0x28] [(0x01FD, 0xFF)] with sp := 0xFC } (fun t =>
      t.p == 0xEF) = true := by decide

/-- V-FLAGS. -/
theorem test_clc :
    lands { startAt 0x0200 [0x18] [] with p := 0x25 } (fun t =>
      t.p == 0x24 && t.cycleCounter == 2) = true := by decide

/-- V-FLAGS. -/
theorem test_sec :
    lands { startAt 0x0200 [0x38] [] with p := 0x24 } (fun t =>
      t.p == 0x25 && t.cycleCounter == 2) = true := by decide

/-- V-FLAGS. -/
theorem test_cli :
    lands { startAt 0x0200 [0x58] [] with p := 0x24 } (fun t =>
      t.p == 0x20 && t.cycleCounter == 2) = true := by decide

/-- V-FLAGS. -/
theorem test_sei :
    lands { startAt 0x0200 [0x78] [] with p := 0x20 } (fun t =>
      t.p == 0x24 && t.cycleCounter == 2) = true := by decide

/-- V-FLAGS. -/
theorem test_cld :
    lands { startAt 0x0200 [0xD8] [] with p := 0x2C } (fun t =>
      t.p == 0x24 && t.cycleCounter == 2) = true := by decide

/-- V-FLAGS. -/
theorem test_sed :
    lands { startAt 0x0200 [0xF8] [] with p := 0x24 } (fun t =>
      t.p == 0x2C && t.cycleCounter == 2) = true := by decide

/-- V-FLAGS. -/
theorem test_clv :
    lands { startAt 0x0200 [0xB8] [] with p := 0x64 } (fun t =>
      t.p == 0x24 && t.cycleCounter == 2) = true := by decide

/-- V-SYSTEM. -/
theorem test_nop :
    lands (startAt 0x0200 [0xEA] []) (fun t =>
      t.pc == 0x0201 && t.cycleCounter == 2 && t.p == 0x24) = true := by decide

/-- V-SYSTEM. -/
theorem test_unofficial :
    lands (startAt 0x0200 [0x02] []) (fun t =>
      t.pc == 0x0201 && t.cycleCounter == 2 && t.p == 0x24) = true := by decide

/-- V-SYSTEM. -/
theorem test_brk :
    lands { startAt 0x0200 [0x00, 0xEA] [(0xFFFF, 0x90)] with p := 0x20 } (fun t =>
      t.cell 0x01FD == 0x02 && t.cell 0x01FC == 0x02 && t.cell 0x01FB == 0x30 && t.sp == 0xFA && t.p == 0x24 && t.pc == 0x9000 && t.cycleCounter == 7) = true := by decide

/-- V-SYSTEM. -/
theorem test_rti :
    lands { startAt 0x9000 [0x40] [(0x01FB, 0x30), (0x01FC, 0x02), (0x01FD, 0x02)] with sp := 0xFA } (fun t =>
      t.p == 0x20 && t.pc == 0x0202 && t.sp == 0xFD && t.cycleCounter == 6) = true := by decide

/-- V-ADDRESSING: the operand byte is at 0x0000. -/
theorem test_pc_wraps :
    lands (startAt 0xFFFF [0xA9] [(0x0000, 0x55)]) (fun t =>
      t.a == 0x55 && t.pc == 0x0001) = true := by decide

/-- V-ADDRESSING. -/
theorem test_absx_wraps :
    lands { startAt 0x0200 [0xBD, 0xFF, 0xFF] [(0x0001, 0x33)] with x := 0x02 } (fun t =>
      t.a == 0x33 && t.cycleCounter == 5) = true := by decide

/-- V-ADDRESSING. -/
theorem test_indy_cross :
    lands { startAt 0x0200 [0xB1, 0x40] [(0x40, 0xF8), (0x41, 0x20), (0x2108, 0x66)] with y := 0x10 } (fun t =>
      t.a == 0x66 && t.cycleCounter == 6) = true := by decide

/-! ### The bus, interrupts, the timer and reset (95 S5, S6, V-INTERRUPT, V-TIMER) -/

/-- The configuration of S5: the ROM window `[0xAA, 0xBB]` at 0x9000 and one hook over 0x9001. -/
def busState (answers : List (Option Byte)) : State :=
  { State.reset with
    cfg := { Config.default with
      romWindows := [⟨0x9000, [0xAA, 0xBB]⟩], hooks := [⟨0x9001, 0x9001, .external 7, true, true⟩] }
    ram := [(0x9000, 0x11)], io := ⟨answers, 0, []⟩ }

/-- S5, the reads: ROM over RAM, hook over ROM, RAM, and ROM again when the handler answers "no value". -/
theorem test_bus_read_priority :
    ((busState []).busRead 0x9000).1 = 0xAA ∧ ((busState [some 0x5C]).busRead 0x9001).1 = 0x5C ∧
    ((busState []).busRead 0x9002).1 = 0x00 ∧ ((busState [none]).busRead 0x9001).1 = 0xBB := by decide

/-- S5, the writes: discarded by ROM, owned by the hook, stored in RAM. -/
theorem test_bus_write_priority :
    (busState []).busWrite 0x9000 0x77 = busState [] ∧
    ((busState []).busWrite 0x9001 0x78).io.log = [.write 7 0x9001 0x78] ∧
    ((busState []).busWrite 0x9001 0x78).ram = [(0x9000, 0x11)] ∧
    ((busState []).busWrite 0x9002 0x79).cell 0x9002 = 0x79 := by decide

/-- S6, the first step: NMI before IRQ. -/
theorem test_nmi_first :
    lands (State.nmi (State.irq { startAt 0x0200 [] [(0xFFFB, 0x80), (0xFFFF, 0x90)] with p := 0x20 })) (fun t =>
      t.pc == 0x8000 && t.cell 0x01FD == 0x02 && t.cell 0x01FB == 0x20 && t.sp == 0xFA && t.p == 0x24 &&
      !t.pendingNMI && t.pendingIRQ && t.cycleCounter == 7) = true := by decide

/-- S6, the second step: a latched IRQ is serviced although `P.I` is 1 by now (90 C1). -/
theorem test_latched_irq_is_serviced :
    lands { startAt 0x8000 [] [(0xFFFF, 0x90)] with sp := 0xFA, pendingIRQ := true } (fun t =>
      t.pc == 0x9000 && t.cell 0x01FA == 0x80 && t.cell 0x01F8 == 0x24 && t.sp == 0xF7 && !t.pendingIRQ) = true := by
  decide

/-- V-INTERRUPT, "flags on entry". -/
theorem test_interrupt_entry :
    lands (State.irq { startAt 0xABCD [] [(0xFFFE, 0x34), (0xFFFF, 0x12)] with sp := 0x01, p := 0xE9 }) (fun t =>
      t.cell 0x0101 == 0xAB && t.cell 0x0100 == 0xCD && t.cell 0x01FF == 0xE9 && t.sp == 0xFE && t.p == 0xED &&
      t.pc == 0x1234) = true := by decide

/-- V-INTERRUPT, "masked request is lost": the status after reset masks it. -/
theorem test_masked_irq_is_lost : State.reset.irq.pendingIRQ = false := by decide

/-- V-INTERRUPT, `reset()`. -/
theorem test_reset :
    State.doReset { startAt 0x0200 [] [(0xFFFD, 0xC0)] with
      a := 0x11, x := 0x22, y := 0x33, sp := 0x12, p := 0xFF, cycleCounter := 99, pendingNMI := true
      pendingIRQ := true } =
    { startAt 0x0200 [] [(0xFFFD, 0xC0)] with a := 0x11, x := 0x22, y := 0x33, pc := 0xC000 } := by decide

/-- V-TIMER: latch and arm, then an expiry that drops its overshoot. -/
theorem test_timer_writes_and_expiry :
    ((Timer.powerOn.writeRegister 4 5 4 0x34).writeRegister 4 5 5 0x12).counter = 0x1234 ∧
    (((Timer.powerOn.writeRegister 4 5 4 0x34).writeRegister 4 5 5 0x12).tick 0x1233).counter = 1 ∧
    ((((Timer.powerOn.writeRegister 4 5 4 0x34).writeRegister 4 5 5 0x12).tick 0x1233).tick 7).counter = 0x1234 ∧
    (Timer.powerOn.writeRegister 4 5 4 0x34).enabled = false := by decide

/-- V-TIMER: a latch of 0 reloads 0x10000; one request per tick, and none while `P.I` is 1. -/
theorem test_timer_zero_latch_and_mask :
    (({ Timer.powerOn with enabled := true } : Timer).tick 2).counter = 0x10000 ∧
    (State.tick { State.reset with timer := ⟨Vector.replicate 8 0, 5, 5, true⟩ } 5).pendingIRQ = false ∧
    (State.tick { State.reset with p := 0x20, timer := ⟨Vector.replicate 8 0, 5, 5, true⟩ } 23) =
      { State.reset with p := 0x20, pendingIRQ := true, timer := ⟨Vector.replicate 8 0, 5, 5, true⟩ } := by decide

/-- P3, system step 4: `STA $E845` arms the timer through the bus, and the tick of its own step counts. -/
theorem test_store_arms_the_timer :
    lands { State.reset.withFetchWord 24 0xE8458D with timer := { Timer.powerOn with latch := 20 } } (fun t =>
      t.timer.counter == 16 && t.timer.enabled && t.cell 0xE845 == 0) = true := by decide

/-- Listed calls are served one per step: here an `irq()`, a bare `tick`, a bare `step()`. -/
theorem test_inputs_are_served :
    lands { State.reset with p := 0x20, inputs := [.irq, .step] } (fun t =>
      t.pendingIRQ && t.inputs == [.step] && t.cycleCounter == 0) = true ∧
    lands { State.reset with inputs := [.tick 9], timer := ⟨Vector.replicate 8 0, 5, 12, true⟩ } (fun t =>
      t.timer.counter == 3 && t.inputs == []) = true ∧
    lands { State.reset with inputs := [.step], timer := ⟨Vector.replicate 8 0, 5, 12, true⟩ } (fun t =>
      t.timer.counter == 12 && t.cycleCounter == 7) = true := by decide

/-- 90 C1, the alternative reading (log 9): with `P.I` = 1 a latched IRQ stays pending and an instruction runs, here the
`BRK` of empty memory; with `P.I` = 0 it is serviced, Break clear in the pushed status. -/
theorem test_irq_recheck :
    lands { State.reset with pendingIRQ := true, cfg := { Config.default with irqRecheckMask := true } } (fun t =>
      t.pendingIRQ && t.cell 0x01FB == 0x34) = true ∧
    lands { State.reset with p := 0x20, pendingIRQ := true, cfg := { Config.default with irqRecheckMask := true } }
      (fun t => !t.pendingIRQ && t.cell 0x01FB == 0x20) = true := by decide

/-- From reset with nothing placed, memory reads 0x00, which is `BRK` (log 23). -/
theorem test_empty_memory_is_brk :
    lands State.reset (fun t => t.pc == 0 && t.sp == 0xFA && t.cell 0x01FB == 0x34 && t.cycleCounter == 7) = true := by
  decide

/-- The word placed by `withFetchWord` is what the next step runs, after reset and where a request is pending. -/
theorem test_with_fetch_word :
    lands (State.reset.withFetchWord 16 0x7FA9) (fun t => t.a == 0x7F && t.pc == 2) = true ∧
    lands (State.withFetchWord { State.reset with pc := 0xFFFF, pendingNMI := true, running := false } 16 0x7FA9)
      (fun t => t.a == 0x7F && t.pc == 1) = true := by decide

/-! ### Witnesses: what meets the hypotheses of the statements -/

/-- The outcome is a next state that passes the check. -/
def answers (o : Host.Outcome State Fault Refusal) (check : State → Bool) : Bool :=
  match o with
  | .next t => check t
  | .fault _ => false
  | .refused _ => false

theorem exists_of_answers {o : Host.Outcome State Fault Refusal} {check : State → Bool} (h : answers o check = true) :
    ∃ t, o = .next t ∧ check t = true := by
  cases o with
  | next t => exact ⟨t, rfl, h⟩
  | fault f => cases h
  | refused r => cases h

/-- The witnesses, part 1. -/
def oneOfEach1 : List Instr :=
  [.adc (.indY 0xFF), .and (.imm 0), .asl .acc, .bcc (.rel 0x80), .bcs (.rel 0x7F), .beq (.rel 0), .bit (.abs 0xFFFF),
   .bmi (.rel 1), .bne (.rel 0xFF), .bpl (.rel 2), .brk, .bvc (.rel 3), .bvs (.rel 4), .clc, .cld, .cli, .clv]

/-- The witnesses, part 2. -/
def oneOfEach2 : List Instr :=
  [.cmp (.absX 0xFFFF), .cpx (.abs 0), .cpy (.imm 0xFF), .dec (.absX 0), .dex, .dey, .eor (.zpX 0xFF), .inc (.zp 0),
   .inx, .iny, .jmp (.ind 0xFFFF), .jsr (.abs 0), .lda (.absY 0xFFFF), .ldx (.zpY 0xFF), .ldy (.absX 0)]

/-- The witnesses, part 3. -/
def oneOfEach3 : List Instr :=
  [.lsr (.absX 0xFFFF), .nop, .ora (.indX 0xFF), .pha, .php, .pla, .plp, .rol (.zpX 0), .ror .acc, .rti, .rts,
   .sbc (.indY 0), .sec, .sed, .sei, .sta (.indX 0xFF), .stx (.zpY 0), .sty (.zpX 0xFF)]

/-- The witnesses, part 4. -/
def oneOfEach4 : List Instr :=
  [.tax, .tay, .tsx, .txa, .txs, .tya, .unofficialNop 0x02]

/-- A well-formed instruction of every constructor: the hypothesis of `DecodeReadsBackEncode`,
`EveryInstructionCompletes`, `CyclesFollowTheTable`, the result statements, and the right side of
`WellFormedIffSomeOpcodeEncodes`. -/
def oneOfEach : List Instr :=
  oneOfEach1 ++ oneOfEach2 ++ oneOfEach3 ++ oneOfEach4

theorem witness_every_constructor_has_a_wellformed_instruction :
    oneOfEach.length = 57 ∧ (oneOfEach.map Instr.mnemonic).Nodup ∧ ∀ i ∈ oneOfEach, i.wf = true := by decide

/-- `DecodedBytesAreTheEncoding`, `StepRunsTheDecodedInstruction`: a decoding that leaves bytes, one that leaves none. -/
theorem witness_decoding :
    decode [0xFF, 0xFF] = .instr (.unofficialNop 0xFF) [0xFF] ∧
    decode (State.reset.fetchBytes 1).1 = .instr .brk [] := by decide

/-- `UnofficialOpcodesAreTheFallback`, `NopsOnlyTakeTime`: a byte of each kind. -/
theorem witness_unofficial : (0xFF : Byte) ∈ unofficialBytes ∧ (0xFE : Byte) ∉ unofficialBytes ∧
    State.reset.cfg.cycles = none := by decide

/-- `RamIsAnArrayOfBytes`: canonical memories, with cells at both ends. -/
theorem witness_ram : Memory.wf [(0, 1), (0xFFFF, 2)] = true ∧ Memory.wf ([] : Memory) = true := by decide

/-- `BusReadPriority`, `BusWritePriority`: in one well-formed configuration, an external hook that covers 0x9001 and
answers a value or none, a ROM window that covers 0x9000 (its first address), and a plain 0x9002. -/
theorem witness_bus_external :
    configWf (busState []).cfg = true ∧ Memory.wf (busState []).ram = true ∧
    (∃ h ∈ (busState []).cfg.hooks, hookCovers h 0x9001 = true ∧ h.hasRead = true ∧ h.hasWrite = true ∧
      h.device = .external 7) ∧
    (some 0x5C : Option Byte) = (busState [some 0x5C]).io.answers.headD (Config.freeHookAnswer 0) ∧
    (none : Option Byte) = (busState [none]).io.answers.headD (Config.freeHookAnswer 0) ∧
    (∃ w ∈ (busState []).cfg.romWindows, romCovers w 0x9000 = true) ∧
    (∀ h ∈ (busState []).cfg.hooks, hookCovers h 0x9000 = false) ∧
    (∀ w ∈ (busState []).cfg.romWindows, romCovers w 0x9002 = false) := by decide

/-- `CyclesFollowTheTable`: a configuration with another table, and its entry of an opcode byte. -/
theorem witness_cycles :
    cyclesWf (some (List.replicate 256 ⟨3, true⟩)) = true ∧ encode .nop = [0xEA] ∧
    (List.replicate 256 (⟨3, true⟩ : CycleEntry))[(0xEA : Byte).toNat]? = some ⟨3, true⟩ :=
  ⟨by decide +kernel, by decide, List.getElem?_replicate_of_lt (by decide)⟩

/-- `BusReadPriority`, `BusWritePriority`, `StoresToTheTimerHookWriteItsRegister`: the timer's first and last address, and
an operand of each kind that resolves to the last. -/
theorem witness_bus_timer :
    configWf State.reset.cfg = true ∧ timerHook 0xE840 ∈ State.reset.cfg.hooks ∧
    hookCovers (timerHook 0xE840) 0xE840 = true ∧ hookCovers (timerHook 0xE840) 0xE847 = true ∧
    (timerHook 0xE840).device = .timer ∧ (timerHook 0xE840).hasWrite = true ∧
    (0xE847 : Word).toNat = (timerHook 0xE840).start + (7 : Fin 8).val ∧
    (State.reset.resolve (.absX 0xE847)).1.loc = .mem 0xE847 ∧ (Instr.sta (.absX 0xE847)).wf = true ∧
    (Instr.ror (.absX 0xE847)).wf = true ∧ (Instr.stx (.abs 0xE847)).wf = true := by decide

/-- `RegistrationRefusesMalformedRanges`: what is accepted and what is refused, at the end of the address space, the
timer's own hook and the empty window among them. -/
theorem witness_registration :
    (hookIO ⟨0xE848, 0xFFFF, .external 1, true, true⟩ Config.default).isSome = true ∧
    (hookIO ⟨0xE847, 0xE847, .external 1, true, true⟩ Config.default).isSome = false ∧
    (mapROM 0xFFFF [1] Config.default).isSome = true ∧ (mapROM 0xFFFF [1, 2] Config.default).isSome = false ∧
    (hookIO (timerHook 0xFFF8) { Config.default with hooks := [] }).isSome = true ∧
    (hookIO ⟨0, 7, .timer, true, false⟩ { Config.default with hooks := [] }).isSome = false ∧
    (hookIO (timerHook 0) Config.default).isSome = false ∧
    (mapROM 0x10000 [] Config.default).isSome = true ∧ (mapROM 0x10001 [] Config.default).isSome = false := by decide

/-- `IndirectAddressingModes`, `JmpGoesToItsTarget`: pointers at the end of a page, both values of `ZP_PTR_WRAP`. -/
theorem witness_pointers :
    ((0x00FF : Word).toNat = ((0xFC : Byte).toNat + (3 : Byte).toNat) % 256 ∧
      (0x0000 : Word).toNat = ((0x00FF : Word).toNat + 1) % 256 ∧ State.reset.cfg.zpPtrWrap = true) ∧
    ((0x0100 : Word).toNat = (0x00FF : Word).toNat + 1 ∧ ({ Config.default with zpPtrWrap := false }).zpPtrWrap = false) ∧
    (0x3000 : Word).toNat = (0x30FF : Word).toNat / 256 * 256 + ((0x30FF : Word).toNat % 256 + 1) % 256 := by decide

/-- `StackPushesAndPulls`: both clauses, at the ends of the stack page. -/
theorem witness_stack :
    (0x01FD : Word).toNat = 0x100 + State.reset.sp.toNat ∧ Memory.wf State.reset.ram = true ∧
    plainAddr State.reset.cfg 0x01FD = true ∧
    (0x0100 : Word).toNat = 0x100 + (({ State.reset with sp := 0xFF }).sp.toNat + 1) % 256 := by decide

/-- `DirectAddressingModes`, `StoresWriteOneByte`, `IncDecModifyOneByte`, `ShiftsMoveOneBit`: an operand that resolves to
an address. -/
theorem witness_store_operands :
    (State.reset.resolve (.absX 0xFFFF)).1.loc = .mem 0xFFFF ∧ (Instr.sta (.absX 0xFFFF)).wf = true ∧
    (Instr.inc (.absX 0xFFFF)).wf = true ∧ (Instr.dec (.absX 0xFFFF)).wf = true ∧ (Instr.asl (.absX 0xFFFF)).wf = true ∧
    (Instr.lsr (.absX 0xFFFF)).wf = true ∧ (Instr.rol (.absX 0xFFFF)).wf = true ∧ (Instr.ror (.absX 0xFFFF)).wf = true ∧
    (State.reset.resolve (.zpY 0xFF)).1.loc = .mem 0x00FF ∧ (Instr.stx (.zpY 0xFF)).wf = true ∧
    (Instr.sty (.zpX 0xFF)).wf = true ∧ (Operand.absX 0xFFFF) ≠ .acc := by decide

/-- `DecimalAdderIsDecimalOnBCD`: the largest BCD byte, and one that is none. -/
theorem witness_bcd : isBCD 0x99 = true ∧ bcdValue 0x99 = 99 ∧ isBCD 0x9A = false := by decide

/-- `AdcAddsWithCarry`, `SbcSubtractsWithBorrow`: both modes. -/
theorem witness_decimal_mode :
    State.reset.flag .d = false ∧ (State.flag { State.reset with p := 0x2C } .d) = true ∧
    (Instr.adc (.imm 0)).wf = true ∧ (Instr.sbc (.imm 0)).wf = true := by decide

/-- `RtsUndoesJsr`: a stack pointer of 0, so that the two bytes lie at both ends of the page. -/
theorem witness_jsr_frame :
    Memory.wf (startAt 0x0200 [] []).ram = true ∧
    plainAddr (startAt 0x0200 [] []).cfg (stackAddr 0) = true ∧ plainAddr (startAt 0x0200 [] []).cfg (stackAddr (0 - 1)) = true ∧
    ∃ t, exec (.jsr (.abs 0x1234)) { startAt 0x0200 [] [] with sp := 0 } = .next t ∧ (t.sp == 0xFE) = true :=
  ⟨by decide, by decide, by decide, exists_of_answers (check := fun t => t.sp == 0xFE) (by decide)⟩

/-- `RtiUndoesBrk`, `RtiUndoesAnInterruptService`: a legal status and three plain stack bytes. -/
theorem witness_brk_frame :
    Memory.wf State.reset.ram = true ∧ State.reset.p &&& 0x30 = 0x20 ∧
    plainAddr State.reset.cfg (stackAddr State.reset.sp) = true ∧
    plainAddr State.reset.cfg (stackAddr (State.reset.sp - 1)) = true ∧
    plainAddr State.reset.cfg (stackAddr (State.reset.sp - 2)) = true ∧
    (∃ t, exec .brk State.reset = .next t ∧ (t.sp == 0xFA) = true) ∧
    (State.reset.serviceInterrupt irqVector).sp = 0xFA :=
  ⟨by decide, by decide, by decide, by decide, by decide, exists_of_answers (check := fun t => t.sp == 0xFA)
    (by decide), by decide⟩

/-- `OnlyListedInstructionsWriteAFlag`, `OnlyListedInstructionsWriteARegister`, `OnlyStoresAndPushesWriteMemory`: an
instruction outside each list, a memory shift, an accumulator shift, a state with Break set. -/
theorem witness_writers :
    (∃ t, exec .nop State.reset = .next t ∧ true = true) ∧
    (∀ f, (Instr.nop).mnemonic ∉ flagWriters f) ∧ (Instr.nop).mnemonic ∉ memoryWriters ∧
    (∃ t, exec (.asl (.zp 0)) State.reset = .next t ∧ true = true) ∧ (Instr.asl (.zp 0)).mode ≠ .acc ∧
    (∃ t, exec (.asl .acc) State.reset = .next t ∧ true = true) ∧ (Instr.asl .acc).mode = .acc ∧
    (∃ t, exec .nop { State.reset with p := 0x34 } = .next t ∧ t.flag .b = true) :=
  ⟨exists_of_answers (check := fun _ => true) (by decide), fun f => by cases f <;> decide, by decide,
    exists_of_answers (check := fun _ => true) (by decide), by decide,
    exists_of_answers (check := fun _ => true) (by decide), by decide,
    exists_of_answers (check := fun t => t.flag .b) (by decide)⟩

/-- `IrqIsGatedWhenItIsRequested`, `PendingRequestsAreServicedNmiFirst`: each clause. -/
theorem witness_requests :
    State.reset.flag .i = true ∧ (State.flag { State.reset with p := 0x20 } .i) = false ∧
    State.reset.running = true ∧ State.reset.nmi.pendingNMI = true ∧
    (State.irq { State.reset with p := 0x20 }).pendingIRQ = true ∧ State.reset.pendingNMI = false ∧
    State.reset.cfg.irqRecheckMask = false ∧ ({ Config.default with irqRecheckMask := true }).irqRecheckMask = true ∧
    decode (State.reset.fetchBytes 1).1 = .instr .brk [] := by decide

/-- `TimerRegisterWrites`: the two latch registers and another. -/
theorem witness_timer_registers : (4 : Fin 8) ≠ 5 ∧ (7 : Fin 8) ≠ 4 ∧ (7 : Fin 8) ≠ 5 := by decide

/-- `TickReloadsOnExpiry`, `TicksAddUpBeforeExpiry`: a counter of 5 ticked by 4 (1 is left) and by 5 (0 is left). -/
theorem witness_ticks :
    State.reset.timer.enabled = false ∧
    (⟨Vector.replicate 8 0, 5, 5, true⟩ : Timer).enabled = true ∧
    0 < (⟨Vector.replicate 8 0, 5, 5, true⟩ : Timer).counter - (4 : Nat) ∧
    (⟨Vector.replicate 8 0, 5, 5, true⟩ : Timer).counter - (5 : Nat) ≤ 0 := by decide

theorem witness_ready : Ready State.reset := ⟨by decide, rfl, rfl, rfl, rfl⟩

/-- `StepServesTheListedCall`, `NoStepStops`, `EveryCpuStepTakesTwoCycles`: a step that runs. -/
theorem witness_cpu_step :
    configWf State.reset.cfg = true ∧ State.reset.inputs = [] ∧
    (∃ t, State.reset.cpuStep = .next t ∧ (t.cycleCounter == 7) = true) ∧
    (∃ t, State.cpuStep { { State.reset with inputs := [.system] } with inputs := [] } = .next t ∧ true = true) :=
  ⟨by decide, rfl, exists_of_answers (check := fun t => t.cycleCounter == 7) (by decide),
    exists_of_answers (check := fun _ => true) (by decide)⟩

/-- `StepServesTheListedCall`: a state for each call. -/
theorem witness_listed_calls : ∀ call ∈ [Input.system, .step, .tick 0, .nmi, .irq, .reset],
    configWf ({ State.reset with inputs := [call] } : State).cfg = true ∧
    ({ State.reset with inputs := [call] } : State).inputs = call :: [] := by decide

/-- `RtsReturnsPastThePulledAddress`, `PlaPlpPullOneByte`, `RtiRestoresStatusAndPC`, `ResetLoadsTheVector`,
`BrkEntersThroughTheIrqVector`, `JsrPushesTheReturnAddress`: the reads and the list their hypotheses name, at a stack
pointer that wraps. -/
theorem witness_named_reads :
    State.reset.busRead (stackAddr (State.reset.sp + 3)) = (0, State.reset) ∧
    State.reset.busRead 0xFFFD = (0, State.reset) ∧
    ({ (State.reset.busRead State.reset.pc).2 with pc := State.reset.pc + 1 } : State) = { State.reset with pc := 1 } ∧
    [(stackAddr 0, BitVec.ofNat 8 (((0 : Word).toNat + 65535) % 65536 / 256)),
      (stackAddr (0 - 1), BitVec.ofNat 8 ((0 : Word).toNat + 65535))] = [((0x0100 : Word), (0xFF : Byte)), (0x01FF, 0xFF)] := by
  decide

/-- `RefusalsAreNamed`: each clause. -/
theorem witness_refusals :
    (Instr.sta (.imm 0)).wf = false ∧ configWf { Config.default with timerRegLo := 5 } = false ∧
    configWf (State.powerOn Config.default [] 1 2 3 4 5 6 7 true true).cfg = true ∧
    (State.powerOn Config.default [] 1 2 3 4 5 6 7 true true).running = false ∧
    (State.powerOn Config.default [] 1 2 3 4 5 6 7 true true).inputs = [] ∧
    (∀ calls ∈ [[], [Input.system], [Input.step, .reset]], calls.head? ∈ [none, some Input.system, some Input.step]) := by
  decide

/-- `EveryStepKeepsTheInvariant`, `NoStepStops`: a state with the invariant, at the ends of the counter's range, and
its step. -/
theorem witness_invariant :
    Inv { State.reset with timer := ⟨Vector.replicate 8 0, 0, 0x10000, true⟩ } ∧
    ∃ t, step { State.reset with timer := ⟨Vector.replicate 8 0, 0, 0x10000, true⟩ } = .next t ∧
      (t.timer.counter == 0xFFF9) = true :=
  ⟨⟨by decide, by decide, by decide, rfl, by decide⟩,
    exists_of_answers (check := fun t => t.timer.counter == 0xFFF9) (by decide)⟩

/-- `StepKeepsConfigurationAndShieldedRam`: a step with the timer armed, a cell under a write handler, one under ROM. -/
theorem witness_shielded :
    (∃ t, step (busState []) = .next t ∧ true = true) ∧
    (∃ h ∈ (busState []).cfg.hooks, hookCovers h 0x9001 = true ∧ h.hasWrite = true) ∧
    (∃ w ∈ (busState []).cfg.romWindows, romCovers w 0x9000 = true) ∧
    ({ Timer.powerOn with enabled := true }).enabled = true :=
  ⟨exists_of_answers (check := fun _ => true) (by decide), by decide, by decide, rfl⟩

end Sys2Proof.Tests
end

section
/-! PROOF. What a CPU instruction that answers a next state did, by the shape of its meaning (40 R91): the state before
the operation is the one after the fetch but for the record of the external devices, which the operand's reads advance. -/

namespace Sys2Proof.Machine

/-- An instruction in implied mode. -/
theorem executeImplied_inv_cycles {i : Instr} {s t : State} {f : State → State} (h : executeImplied i s f = .next t) :
    ∃ n, t = (f s).addCycles n :=
  have ⟨_, _, ht⟩ := executeImplied_inv h
  ⟨_, ht⟩

/-- An instruction that operates on a location. -/
theorem executeOperand_inv_io {i : Instr} {o : Operand} {s t : State} {f : Location → State → State}
    (h : executeOperand i o s f = .next t) :
    ∃ io n, t = (f (s.resolve o).1.loc { s with io := io }).addCycles n := by
  obtain ⟨_, -, ht⟩ := executeOperand_inv h
  rw [s.resolve_shape o] at ht
  exact ⟨_, _, ht⟩

/-- An instruction that operates on a loaded value. -/
theorem executeRead_inv_io {i : Instr} {o : Operand} {s t : State} {f : Byte → State → State}
    (h : executeRead i o s f = .next t) : ∃ v io n, t = (f v { s with io := io }).addCycles n := by
  obtain ⟨_, _, ht⟩ := executeOperand_inv_io h
  rw [State.loadOperand_shape] at ht
  exact ⟨_, _, _, ht⟩

/-- An instruction that stores the result of its operation back where it loaded from. -/
theorem executeModify_inv_io {i : Instr} {o : Operand} {s t : State} {f : Byte → State → Byte × State}
    (h : executeModify i o s f = .next t) :
    ∃ v io n, t = ((f v { s with io := io }).2.storeOperand (f v { s with io := io }).1
      (s.resolve o).1.loc).addCycles n := by
  obtain ⟨_, _, ht⟩ := executeOperand_inv_io h
  dsimp only at ht
  rw [State.loadOperand_shape] at ht
  exact ⟨_, _, _, ht⟩

theorem executeImplied_eq_execute (i : Instr) (s : State) (f : State → State) :
    ∃ body, executeImplied i s f = execute i s body :=
  ⟨_, rfl⟩

theorem executeOperand_eq_execute (i : Instr) (o : Operand) (s : State) (f : Location → State → State) :
    ∃ body, executeOperand i o s f = execute i s body :=
  ⟨_, rfl⟩

theorem executeRead_eq_execute (i : Instr) (o : Operand) (s : State) (f : Byte → State → State) :
    ∃ body, executeRead i o s f = execute i s body :=
  executeOperand_eq_execute i o s _

theorem executeModify_eq_execute (i : Instr) (o : Operand) (s : State) (f : Byte → State → Byte × State) :
    ∃ body, executeModify i o s f = execute i s body :=
  executeOperand_eq_execute i o s _

/-- Every meaning is `ExecuteInstruction` around some operation (40 R91). -/
theorem exec_eq_execute (i : Instr) (s : State) : ∃ body, exec i s = execute i s body := by
  unfold exec
  cases i with
  | brk | clc | cld | cli | clv | dex | dey | inx | iny | nop | pha | php | pla | plp | rti | rts | sec | sed | sei
  | tax | tay | tsx | txa | txs | tya | unofficialNop _ => exact executeImplied_eq_execute _ s _
  | lda o | ldx o | ldy o | adc o | sbc o | cmp o | cpx o | cpy o | and o | ora o | eor o | bit o =>
    exact executeRead_eq_execute _ o s _
  | inc o | dec o | asl o | lsr o | rol o | ror o => exact executeModify_eq_execute _ o s _
  | sta o | stx o | sty o | jmp o | jsr o | bcc o | bcs o | beq o | bmi o | bne o | bpl o | bvc o | bvs o =>
    exact executeOperand_eq_execute _ o s _

/-- An instruction that answers a next state is one that some opcode encodes. -/
theorem opcodeOf_ne_none_of_exec {i : Instr} {s t : State} (h : exec i s = .next t) : opcodeOf i ≠ none := by
  obtain ⟨body, hb⟩ := exec_eq_execute i s
  obtain ⟨op, ho, -⟩ := execute_inv (hb ▸ h)
  simp [ho]

/-- Only the accumulator operand resolves to `A`. -/
theorem State.resolve_loc_ne_acc (s : State) {o : Operand} (ho : o ≠ .acc) : (s.resolve o).1.loc ≠ .acc := by
  cases o <;> simp_all [State.resolve, indexed]

/-- A store anywhere else keeps `A`. -/
theorem State.storeOperand_a (s : State) (v : Byte) {l : Location} (hl : l ≠ .acc) : (s.storeOperand v l).a = s.a := by
  cases l with
  | acc => exact absurd rfl hl
  | imm _ => rfl
  | mem a => exact s.busWrite_a a v

/-! ### The jumps write `PC` and the cycle counter alone -/

theorem State.jumpTo_shape (s : State) (l : Location) : s.jumpTo l = { s with pc := (s.jumpTo l).pc } := by
  cases l <;> rfl

theorem State.branchIf_shape (s : State) (taken : Bool) (l : Location) :
    s.branchIf taken l =
      { s with pc := (s.branchIf taken l).pc, cycleCounter := (s.branchIf taken l).cycleCounter } := by
  cases taken <;> cases l <;> rfl

end Sys2Proof.Machine
end

section
/-! PROOF. Which flags an instruction writes (10 R13, R14, R16). -/

namespace Sys2Proof.Machine

/-- Between the status bytes `p` and `q` only the flags `ws` change; Break is never set and bit 5 never cleared. -/
structure StatusWrite (ws : List Flag) (p q : Byte) : Prop where
  kept : ∀ f, f ∉ ws → getFlag f q = getFlag f p
  noBreak : getFlag .b q = true → getFlag .b p = true
  unused : getFlag .u p = true → getFlag .u q = true

theorem StatusWrite.of_eq {p q : Byte} (h : q = p) : StatusWrite [] p q :=
  h ▸ ⟨fun _ _ => rfl, id, id⟩

theorem putFlag_statusWrite (f : Flag) (hf : f ≠ .b) (b : Bool) (p : Byte) : StatusWrite [.u, f] p (putFlag f b p) := by
  constructor <;> simp +contextual [hf.symm]

theorem putNZ_statusWrite (v p : Byte) : StatusWrite [.u, .n, .z] p (putNZ v p) := by
  constructor <;> simp +contextual

theorem putSum_statusWrite (r : Sum) (p : Byte) : StatusWrite [.u, .n, .z, .v, .c] p (putSum r p) := by
  constructor <;> simp +contextual

theorem putCompare_statusWrite (reg v p : Byte) : StatusWrite [.u, .n, .z, .c] p (putCompare reg v p) := by
  constructor <;> simp +contextual

theorem putBit_statusWrite (a v p : Byte) : StatusWrite [.u, .n, .z, .v] p (putBit a v p) := by
  constructor <;> simp +contextual

theorem putShift_statusWrite (r : Shifted) (p : Byte) : StatusWrite [.u, .n, .z, .c] p (putShift r p) := by
  constructor <;> simp +contextual

/-- The eight flags. -/
def allFlags : List Flag :=
  [.c, .z, .i, .d, .b, .u, .v, .n]

theorem mem_allFlags (f : Flag) : f ∈ allFlags := by
  cases f <;> decide

/-- A pulled status replaces every flag (45 R203, R213). -/
theorem statusPulled_statusWrite (v p : Byte) : StatusWrite allFlags p (statusPulled v) where
  kept f hf := absurd (mem_allFlags f) hf
  noBreak := by simp
  unused := by simp

/-- Such a write keeps a status legal (10 R14). -/
theorem StatusWrite.legal {ws : List Flag} {p q : Byte} (h : StatusWrite ws p q) (hp : p &&& 0x30 = 0x20) :
    q &&& 0x30 = 0x20 := by
  rw [legalStatus_iff] at hp ⊢
  obtain ⟨hb, hu⟩ := hp
  exact ⟨Bool.eq_false_iff.mpr fun hq => by simp [h.noBreak hq] at hb, h.unused hu⟩

/-- The flags an instruction writes are among those 10 R16 lists it for. -/
theorem exec_statusWrite {i : Instr} {s t : State} (h : exec i s = .next t) :
    ∃ ws, (∀ f ∈ ws, i.mnemonic ∈ flagWriters f) ∧ StatusWrite ws s.p t.p := by
  unfold exec at h
  cases i with
  | lda o | ldx o | ldy o | and o | ora o | eor o =>
    obtain ⟨v, io, n, rfl⟩ := executeRead_inv_io h
    exact ⟨_, by simp [Instr.mnemonic, flagWriters], putNZ_statusWrite _ s.p⟩
  | adc o | sbc o =>
    obtain ⟨v, io, n, rfl⟩ := executeRead_inv_io h
    exact ⟨_, by simp [Instr.mnemonic, flagWriters], putSum_statusWrite _ s.p⟩
  | cmp o | cpx o | cpy o =>
    obtain ⟨v, io, n, rfl⟩ := executeRead_inv_io h
    exact ⟨_, by simp [Instr.mnemonic, flagWriters], putCompare_statusWrite _ v s.p⟩
  | bit o =>
    obtain ⟨v, io, n, rfl⟩ := executeRead_inv_io h
    exact ⟨_, by simp [Instr.mnemonic, flagWriters], putBit_statusWrite s.a v s.p⟩
  | sta o | stx o | sty o =>
    obtain ⟨io, n, rfl⟩ := executeOperand_inv_io h
    exact ⟨_, by simp, .of_eq (by simp)⟩
  | inc o | dec o =>
    obtain ⟨v, io, n, rfl⟩ := executeModify_inv_io h
    exact ⟨[.u, .n, .z], by simp [Instr.mnemonic, flagWriters], by simpa using putNZ_statusWrite _ s.p⟩
  | asl o | lsr o | rol o | ror o =>
    obtain ⟨v, io, n, rfl⟩ := executeModify_inv_io h
    exact ⟨[.u, .n, .z, .c], by simp [Instr.mnemonic, flagWriters],
      by simpa [State.shiftWith] using putShift_statusWrite _ s.p⟩
  | jmp o | jsr o =>
    obtain ⟨io, n, rfl⟩ := executeOperand_inv_io h
    exact ⟨_, by simp, .of_eq (by rw [State.jumpTo_shape]; simp)⟩
  | bcc o | bcs o | beq o | bmi o | bne o | bpl o | bvc o | bvs o =>
    obtain ⟨io, n, rfl⟩ := executeOperand_inv_io h
    exact ⟨_, by simp, .of_eq (by rw [State.branchIf_shape]; simp)⟩
  | tax | tay | txa | tya | tsx | inx | iny | dex | dey =>
    obtain ⟨n, rfl⟩ := executeImplied_inv_cycles h
    exact ⟨_, by simp [Instr.mnemonic, flagWriters], putNZ_statusWrite _ s.p⟩
  | txs | nop | pha | php | rts | unofficialNop _ =>
    obtain ⟨n, rfl⟩ := executeImplied_inv_cycles h
    exact ⟨_, by simp, .of_eq (by simp)⟩
  | pla =>
    obtain ⟨n, rfl⟩ := executeImplied_inv_cycles h
    exact ⟨[.u, .n, .z], by simp [Instr.mnemonic, flagWriters], by simpa using putNZ_statusWrite _ s.p⟩
  | plp | rti =>
    obtain ⟨n, rfl⟩ := executeImplied_inv_cycles h
    exact ⟨allFlags, by simp [allFlags, Instr.mnemonic, flagWriters], by simpa using statusPulled_statusWrite _ s.p⟩
  | clc | sec | cli | sei | cld | sed | clv =>
    obtain ⟨n, rfl⟩ := executeImplied_inv_cycles h
    exact ⟨_, by simp [Instr.mnemonic, flagWriters], putFlag_statusWrite _ (by decide) _ s.p⟩
  | brk =>
    obtain ⟨n, rfl⟩ := executeImplied_inv_cycles h
    exact ⟨[.u, .i], by simp [Instr.mnemonic, flagWriters], by simpa using putFlag_statusWrite .i (by decide) true s.p⟩

/-- A flag is its bit of `P`, in numbers (10 R13). -/
theorem getFlag_eq_decide (f : Flag) (p : Byte) : getFlag f p = decide (p.toNat / 2 ^ f.bit % 2 = 1) :=
  Nat.testBit_eq_decide_div_mod_eq

/-- Settles O41: each flag by its bit, and each instruction by the flags it writes. -/
theorem onlyListedInstructionsWriteAFlag : Obligations.OnlyListedInstructionsWriteAFlag := by
  refine ⟨fun s => ?_, fun i s t f h => ?_⟩
  · have := s.p.isLt
    have top : s.p.toNat / 128 % 2 = s.p.toNat / 128 := by omega
    exact ⟨by simpa [State.flag_eq, Flag.bit] using getFlag_eq_decide .c s.p, getFlag_eq_decide .z s.p,
      getFlag_eq_decide .i s.p, getFlag_eq_decide .d s.p, getFlag_eq_decide .b s.p, getFlag_eq_decide .u s.p,
      getFlag_eq_decide .v s.p,
      by simpa [State.flag_eq, Flag.bit, top] using getFlag_eq_decide .n s.p⟩
  · obtain ⟨ws, hws, hw⟩ := exec_statusWrite h
    exact ⟨fun hf => hw.kept f fun hm => hf (hws f hm), hw.noBreak, hw.unused⟩

end Sys2Proof.Machine
end

section
/-! PROOF. Which of `A`, `X`, `Y` and `S` an instruction writes (10 R10, R11). -/

namespace Sys2Proof.Machine

/-- The four 8-bit registers beside `P`. -/
inductive Reg where
  | a | x | y | sp

/-- The value of a register. -/
def State.reg (s : State) : Reg → Byte
  | .a => s.a
  | .x => s.x
  | .y => s.y
  | .sp => s.sp

/-- The instructions that can write a register, by 10 R10 and R11. -/
def regWriters : Reg → List Mnemonic
  | .a => [.lda, .pla, .txa, .tya, .adc, .sbc, .and, .ora, .eor, .asl, .lsr, .rol, .ror]
  | .x => [.ldx, .tax, .tsx, .inx, .dex]
  | .y => [.ldy, .tay, .iny, .dey]
  | .sp => [.txs, .pha, .php, .pla, .plp, .jsr, .rts, .brk, .rti]

/-- The instruction of mnemonic `m` that leads from `s` to `t` keeps every register it is no writer of. -/
def RegsKept (m : Mnemonic) (s t : State) : Prop :=
  ∀ r, m ∉ regWriters r → t.reg r = s.reg r

theorem RegsKept.of_eq {m : Mnemonic} {s t : State} (ha : t.a = s.a) (hx : t.x = s.x) (hy : t.y = s.y)
    (hsp : t.sp = s.sp) : RegsKept m s t
  | .a, _ => ha
  | .x, _ => hx
  | .y, _ => hy
  | .sp, _ => hsp

/-- It is enough that the registers other than one it may write are kept. -/
theorem RegsKept.except (q : Reg) {m : Mnemonic} {s t : State} (hq : m ∈ regWriters q)
    (h : ∀ r, r ≠ q → t.reg r = s.reg r) : RegsKept m s t :=
  fun r hr => h r fun e => hr (e ▸ hq)

/-- A read-modify-write of memory keeps `A` where its operation does. -/
theorem executeModify_a {i : Instr} {o : Operand} {s t : State} {f : Byte → State → Byte × State} (ho : o ≠ .acc)
    (hf : ∀ v u, (f v u).2.a = u.a) (h : executeModify i o s f = .next t) : t.a = s.a := by
  obtain ⟨v, io, n, rfl⟩ := executeModify_inv_io h
  rw [State.addCycles_a, State.storeOperand_a _ _ (s.resolve_loc_ne_acc ho), hf]

/-- A store to memory keeps `A`. -/
theorem executeStore_a {i : Instr} {o : Operand} {s t : State} {v : State → Byte} (ho : o ≠ .acc)
    (h : executeOperand i o s (fun l u => u.storeOperand (v u) l) = .next t) : t.a = s.a := by
  obtain ⟨io, n, rfl⟩ := executeOperand_inv_io h
  rw [State.addCycles_a, State.storeOperand_a _ _ (s.resolve_loc_ne_acc ho)]

/-- No store, increment or decrement has an accumulator form (41 R123 to R125, 42 R148, R149). -/
theorem exec_ne_acc {i : Instr} {s t : State} (h : exec i s = .next t)
    (hi : i.mnemonic ∈ [.sta, .stx, .sty, .inc, .dec]) : i.operand ≠ some .acc := by
  intro ho
  have hm : ∀ m ∈ [Mnemonic.sta, .stx, .sty, .inc, .dec], (lookupForm m .acc).isNone = true := by decide
  refine opcodeOf_ne_none_of_exec h ?_
  cases hf : i.fallbackByte with
  | none => simpa [opcodeOf, hf, Instr.mode, ho, Operand.mode] using hm _ hi
  | some op => simp [eq_of_fallbackByte hf, Instr.operand] at ho

/-- An instruction keeps the registers it is no writer of. -/
theorem exec_regsKept {i : Instr} {s t : State} (h : exec i s = .next t) : RegsKept i.mnemonic s t := by
  have noAcc := exec_ne_acc h
  unfold exec at h
  cases i with
  | lda o | and o | ora o | eor o =>
    obtain ⟨v, io, n, rfl⟩ := executeRead_inv_io h
    exact .except .a (by simp [Instr.mnemonic, regWriters]) (by rintro (_ | _) <;> simp [State.reg])
  | adc o | sbc o =>
    obtain ⟨v, io, n, rfl⟩ := executeRead_inv_io h
    exact .except .a (by simp [Instr.mnemonic, regWriters]) (by rintro (_ | _) <;> simp [State.reg, State.accumulate])
  | ldx o =>
    obtain ⟨v, io, n, rfl⟩ := executeRead_inv_io h
    exact .except .x (by simp [Instr.mnemonic, regWriters]) (by rintro (_ | _) <;> simp [State.reg])
  | ldy o =>
    obtain ⟨v, io, n, rfl⟩ := executeRead_inv_io h
    exact .except .y (by simp [Instr.mnemonic, regWriters]) (by rintro (_ | _) <;> simp [State.reg])
  | cmp o | cpx o | cpy o | bit o =>
    obtain ⟨v, io, n, rfl⟩ := executeRead_inv_io h
    exact .of_eq rfl rfl rfl rfl
  | sta o | stx o | sty o =>
    have ha := executeStore_a (by rintro rfl; exact noAcc (by decide) rfl) h
    obtain ⟨io, n, rfl⟩ := executeOperand_inv_io h
    exact .of_eq ha (by simp) (by simp) (by simp)
  | inc o | dec o =>
    have ha := executeModify_a (by rintro rfl; exact noAcc (by decide) rfl) (fun _ _ => rfl) h
    obtain ⟨v, io, n, rfl⟩ := executeModify_inv_io h
    exact .of_eq ha (by simp) (by simp) (by simp)
  | asl o | lsr o | rol o | ror o =>
    obtain ⟨v, io, n, rfl⟩ := executeModify_inv_io h
    exact .except .a (by simp [Instr.mnemonic, regWriters]) (by rintro (_ | _) <;> simp [State.reg, State.shiftWith])
  | jmp o =>
    obtain ⟨io, n, rfl⟩ := executeOperand_inv_io h
    rw [State.jumpTo_shape]
    exact .of_eq rfl rfl rfl rfl
  | jsr o =>
    obtain ⟨io, n, rfl⟩ := executeOperand_inv_io h
    rw [State.jumpTo_shape]
    exact .except .sp (by simp [Instr.mnemonic, regWriters]) (by rintro (_ | _) <;> simp [State.reg])
  | bcc o | bcs o | beq o | bmi o | bne o | bpl o | bvc o | bvs o =>
    obtain ⟨io, n, rfl⟩ := executeOperand_inv_io h
    rw [State.branchIf_shape]
    exact .of_eq rfl rfl rfl rfl
  | txa | tya =>
    obtain ⟨n, rfl⟩ := executeImplied_inv_cycles h
    exact .except .a (by decide) (by rintro (_ | _) <;> simp [State.reg])
  | tax | tsx | inx | dex =>
    obtain ⟨n, rfl⟩ := executeImplied_inv_cycles h
    exact .except .x (by decide) (by rintro (_ | _) <;> simp [State.reg])
  | tay | iny | dey =>
    obtain ⟨n, rfl⟩ := executeImplied_inv_cycles h
    exact .except .y (by decide) (by rintro (_ | _) <;> simp [State.reg])
  | clc | sec | cli | sei | cld | sed | clv | nop | unofficialNop _ =>
    obtain ⟨n, rfl⟩ := executeImplied_inv_cycles h
    exact .of_eq rfl rfl rfl rfl
  | txs | pha | php | plp | rts | brk | rti =>
    obtain ⟨n, rfl⟩ := executeImplied_inv_cycles h
    exact .except .sp (by decide) (by rintro (_ | _) <;> simp [State.reg])
  | pla =>
    obtain ⟨n, rfl⟩ := executeImplied_inv_cycles h
    exact fun
      | .a, hr | .sp, hr => absurd (by decide) hr
      | .x, _ | .y, _ => by simp [State.reg]

/-- The memory forms of the shifts keep `A` (43 R164). -/
theorem exec_shift_a {i : Instr} {s t : State} (h : exec i s = .next t) (hi : i.mnemonic ∈ [.asl, .lsr, .rol, .ror])
    (hm : i.mode ≠ .acc) : t.a = s.a := by
  unfold exec at h
  cases i with
  | asl o | lsr o | rol o | ror o =>
    exact executeModify_a (by rintro rfl; exact hm rfl) (fun _ _ => rfl) h
  | _ => simp [Instr.mnemonic] at hi

/-- Settles O42: each register by the instructions that can write it, and the memory forms of the shifts. -/
theorem onlyListedInstructionsWriteARegister : Obligations.OnlyListedInstructionsWriteARegister := by
  intro i s t h
  have kept := exec_regsKept h
  exact ⟨kept .a, exec_shift_a h, kept .x, kept .y, kept .sp⟩

end Sys2Proof.Machine
end

section
/-! PROOF. What no operation of the machine undoes: the configuration, a running CPU, RAM in canonical form with the
timer's counter in its range, an armed timer and shielded RAM (10 R20 to R22, 20 R42). -/

namespace Sys2Proof.Machine

/-- A RAM cell that no bus write reaches: a write handler or a ROM window covers its address (20 R42). -/
def Shielded (c : Config) (a : Word) : Prop :=
  (∃ h ∈ c.hooks, hookCovers h a = true ∧ h.hasWrite = true) ∨ ∃ w ∈ c.romWindows, romCovers w a = true

/-- What every operation keeps from `s` to `t`, whatever it does to the registers of the CPU. -/
structure MachineKept (s t : State) : Prop where
  config : t.cfg = s.cfg
  running : s.running = true → t.running = true
  memory : MemoryOk s → MemoryOk t
  armed : s.timer.enabled = true → t.timer.enabled = true
  shielded : ∀ a, Shielded s.cfg a → t.cell a = s.cell a

theorem MachineKept.of_eq {s t : State} (hc : t.cfg = s.cfg) (hr : t.running = s.running) (hm : t.ram = s.ram)
    (ht : t.timer = s.timer) : MachineKept s t where
  config := hc
  running := hr ▸ id
  memory h := h.of_eq hm ht
  armed := ht ▸ id
  shielded a _ := by simp only [State.cell, hm]

theorem MachineKept.trans {s u t : State} (h : MachineKept s u) (h' : MachineKept u t) : MachineKept s t where
  config := h'.config.trans h.config
  running := h'.running ∘ h.running
  memory := h'.memory ∘ h.memory
  armed := h'.armed ∘ h.armed
  shielded a ha := (h'.shielded a (h.config ▸ ha)).trans (h.shielded a ha)

theorem MachineKept.addCycles {s t : State} (h : MachineKept s t) (n : Nat) : MachineKept s (t.addCycles n) :=
  h.trans (.of_eq rfl rfl rfl rfl)

/-- An operation that begins with the reads of an operand. -/
theorem MachineKept.of_io {s t : State} {io : HookIO} (h : MachineKept { s with io := io } t) : MachineKept s t :=
  (MachineKept.of_eq (s := s) (t := { s with io := io }) rfl rfl rfl rfl).trans h

/-! ### Bus writes -/

/-- No register write disarms the timer (10 R22, 60 R246). -/
theorem Timer.writeRegister_enabled {t : Timer} (h : t.enabled = true) (lo hi i : Fin 8) (v : Byte) :
    (t.writeRegister lo hi i v).enabled = true := by
  unfold Timer.writeRegister
  split
  · exact h
  · split
    · rfl
    · exact h

/-- A write to a shielded address does not reach RAM. -/
theorem State.busWrite_ram_of_shielded {s : State} {a : Word} (h : Shielded s.cfg a) (v : Byte) :
    (s.busWrite a v).ram = s.ram := by
  unfold State.busWrite
  split
  · next k _ => rw [s.deviceWrite_shape k a v]
  · next hnone =>
    obtain ⟨k, hk, hcov, hw⟩ | ⟨w, hw, hcov⟩ := h
    · exact absurd (by simp [hcov, hw]) (List.find?_eq_none.mp hnone k hk)
    · rw [if_pos (List.any_eq_true.mpr ⟨w, hw, hcov⟩)]

theorem MachineKept.busWrite (s : State) (a : Word) (v : Byte) : MachineKept s (s.busWrite a v) where
  config := s.busWrite_cfg a v
  running h := (s.busWrite_running a v).trans h
  memory h := h.busWrite a v
  armed h := by
    obtain ht | ⟨i, ht⟩ := s.busWrite_timer a v <;> rw [ht]
    · exact h
    · exact Timer.writeRegister_enabled h _ _ i v
  shielded b hb := by
    by_cases hba : b = a
    · subst hba
      simp only [State.cell, State.busWrite_ram_of_shielded hb]
    · exact s.busWrite_cell_ne a b v hba

theorem MachineKept.storeOperand (s : State) (v : Byte) (l : Location) : MachineKept s (s.storeOperand v l) := by
  cases l with
  | acc | imm _ => exact .of_eq rfl rfl rfl rfl
  | mem a => exact .busWrite s a v

/-! ### The stack, the handlers' entry and the timer -/

theorem MachineKept.push (s : State) (v : Byte) : MachineKept s (s.push v) :=
  (busWrite s _ v).trans (.of_eq rfl rfl rfl rfl)

theorem MachineKept.pushWord (s : State) (w : Word) : MachineKept s (s.pushWord w) :=
  (push s _).trans (push _ _)

theorem MachineKept.enterHandler (s : State) (vector : Word) (status : Byte) :
    MachineKept s (s.enterHandler vector status) :=
  ((pushWord s s.pc).trans (push _ status)).trans
    (.of_eq (by simp) (by simp) (by simp [State.enterHandler]) (by simp [State.enterHandler]))

/-- A tick leaves an armed timer armed (60 R248). -/
theorem Timer.tick_enabled (t : Timer) (n : Nat) : (t.tick n).enabled = t.enabled := by
  unfold Timer.tick
  split
  · rfl
  · split <;> rfl

theorem MachineKept.tick (s : State) (n : Nat) : MachineKept s (s.tick n) where
  config := s.tick_cfg n
  running h := (s.tick_running n).trans h
  memory h := h.tick n
  armed h := by rw [s.tick_timer n, Timer.tick_enabled, h]
  shielded a _ := by simp only [State.cell, s.tick_ram n]

/-! ### Instructions -/

theorem MachineKept.of_executeRead {i : Instr} {o : Operand} {s t : State} {f : Byte → State → State}
    (h : executeRead i o s f = .next t) (hf : ∀ v u, MachineKept u (f v u)) : MachineKept s t := by
  obtain ⟨v, io, n, rfl⟩ := executeRead_inv_io h
  exact (hf v _).of_io.addCycles n

theorem MachineKept.of_executeOperand {i : Instr} {o : Operand} {s t : State} {f : Location → State → State}
    (h : executeOperand i o s f = .next t) (hf : ∀ l u, MachineKept u (f l u)) : MachineKept s t := by
  obtain ⟨io, n, rfl⟩ := executeOperand_inv_io h
  exact (hf _ _).of_io.addCycles n

theorem MachineKept.of_executeModify {i : Instr} {o : Operand} {s t : State} {f : Byte → State → Byte × State}
    (h : executeModify i o s f = .next t) (hf : ∀ v u, MachineKept u (f v u).2) : MachineKept s t := by
  obtain ⟨v, io, n, rfl⟩ := executeModify_inv_io h
  exact ((hf v _).of_io.trans (.storeOperand _ _ _)).addCycles n

theorem MachineKept.of_executeImplied {i : Instr} {s t : State} {f : State → State}
    (h : executeImplied i s f = .next t) (hf : MachineKept s (f s)) : MachineKept s t := by
  obtain ⟨n, rfl⟩ := executeImplied_inv_cycles h
  exact hf.addCycles n

theorem MachineKept.jumpTo (s : State) (l : Location) : MachineKept s (s.jumpTo l) := by
  rw [s.jumpTo_shape l]
  exact .of_eq rfl rfl rfl rfl

theorem MachineKept.branchIf (s : State) (taken : Bool) (l : Location) : MachineKept s (s.branchIf taken l) := by
  rw [s.branchIf_shape taken l]
  exact .of_eq rfl rfl rfl rfl

/-- Every instruction keeps them: it writes registers, and memory through the bus alone. -/
theorem exec_machineKept {i : Instr} {s t : State} (h : exec i s = .next t) : MachineKept s t := by
  unfold exec at h
  cases i with
  | lda o | ldx o | ldy o | adc o | sbc o | cmp o | cpx o | cpy o | and o | ora o | eor o | bit o =>
    exact .of_executeRead h fun _ _ => .of_eq rfl rfl rfl rfl
  | sta o | stx o | sty o => exact .of_executeOperand h fun l u => .storeOperand u _ l
  | inc o | dec o | asl o | lsr o | rol o | ror o => exact .of_executeModify h fun _ _ => .of_eq rfl rfl rfl rfl
  | jmp o => exact .of_executeOperand h fun l u => .jumpTo u l
  | jsr o => exact .of_executeOperand h fun l u => (MachineKept.pushWord u _).trans (.jumpTo _ l)
  | bcc o | bcs o | beq o | bmi o | bne o | bpl o | bvc o | bvs o =>
    exact .of_executeOperand h fun l u => .branchIf u _ l
  | tax | tay | txa | tya | tsx | txs | inx | iny | dex | dey | clc | sec | cli | sei | cld | sed | clv | nop
  | unofficialNop _ => exact .of_executeImplied h (.of_eq rfl rfl rfl rfl)
  | pha | php => exact .of_executeImplied h (.push s _)
  | pla | plp | rts | rti => exact .of_executeImplied h (.of_eq (by simp) (by simp) (by simp) (by simp))
  | brk =>
    exact .of_executeImplied h
      ((MachineKept.of_eq (by simp) (by simp) (by simp) (by simp)).trans (.enterHandler s.fetchByte.2 _ _))

/-! ### Steps -/

/-- What every step keeps: `MachineKept`, and a legal status (10 R14). -/
structure StepKept (s t : State) : Prop extends MachineKept s t where
  status : s.p &&& 0x30 = 0x20 → t.p &&& 0x30 = 0x20

theorem StepKept.trans {s u t : State} (h : StepKept s u) (h' : StepKept u t) : StepKept s t :=
  ⟨h.toMachineKept.trans h'.toMachineKept, h'.status ∘ h.status⟩

/-- An operation that keeps `P` and the parts of the machine that no operation undoes. -/
theorem StepKept.of_eq {s t : State} (hc : t.cfg = s.cfg) (hr : t.running = s.running) (hm : t.ram = s.ram)
    (ht : t.timer = s.timer) (hp : t.p = s.p) : StepKept s t :=
  ⟨.of_eq hc hr hm ht, hp ▸ id⟩

theorem StepKept.serviceInterrupt (s : State) (vector : Word) : StepKept s (s.serviceInterrupt vector) where
  toMachineKept := (MachineKept.enterHandler s vector _).addCycles 7
  status h := by simpa [State.serviceInterrupt] using putFlag_legal h (by decide)

theorem StepKept.tick (s : State) (n : Nat) : StepKept s (s.tick n) :=
  ⟨.tick s n, fun h => by simpa using h⟩

theorem StepKept.irq (s : State) : StepKept s s.irq := by
  unfold State.irq
  split <;> exact .of_eq rfl rfl rfl rfl rfl

/-- A reset leaves the CPU running with the status 0x24 (70 R270). -/
theorem StepKept.doReset (s : State) : StepKept s s.doReset := by
  rw [s.doReset_shape]
  have status : (0x24 : Byte) &&& 0x30 = 0x20 := by decide
  exact ⟨⟨rfl, fun _ => rfl, fun h => h.of_eq rfl rfl, id, fun _ _ => rfl⟩, fun _ => status⟩

theorem StepKept.fetchInstr (s : State) : StepKept s s.fetchInstr.2 := by
  rw [s.fetchInstr_shape]
  exact .of_eq rfl rfl rfl rfl rfl

theorem exec_stepKept {i : Instr} {s t : State} (h : exec i s = .next t) : StepKept s t where
  toMachineKept := exec_machineKept h
  status hp := by
    obtain ⟨ws, -, hw⟩ := exec_statusWrite h
    exact hw.legal hp

theorem cpuStep_stepKept {s t : State} (h : s.cpuStep = .next t) : StepKept s t := by
  obtain ⟨-, ⟨-, rfl⟩ | ⟨-, -, rfl⟩ | ⟨-, -, he⟩⟩ := State.cpuStep_inv h
  · exact (StepKept.of_eq (s := s) (t := s.setPendingNMI false) rfl rfl rfl rfl rfl).trans (.serviceInterrupt _ nmiVector)
  · exact (StepKept.of_eq (s := s) (t := s.setPendingIRQ false) rfl rfl rfl rfl rfl).trans (.serviceInterrupt _ irqVector)
  · exact (StepKept.fetchInstr s).trans (exec_stepKept he)

/-- Every step keeps them, whatever call it served. -/
theorem step_stepKept {s t : State} (h : step s = .next t) : StepKept s t := by
  obtain ⟨-, u, hu, hcall⟩ := step_inv h
  have start : StepKept s u := by rw [hu]; exact .of_eq rfl rfl rfl rfl rfl
  refine start.trans ?_
  obtain ⟨v, hv, rfl | rfl⟩ | ⟨n, rfl⟩ | rfl | rfl | rfl := hcall
  · exact (cpuStep_stepKept hv).trans (.tick v _)
  · exact cpuStep_stepKept hv
  · exact .tick u n
  · exact .of_eq rfl rfl rfl rfl rfl
  · exact .irq u
  · exact .doReset u

/-- Settles O57: the parts of the invariant that `step_stepKept` keeps, put together. -/
theorem everyStepKeepsTheInvariant : Obligations.EveryStepKeepsTheInvariant := by
  intro s t ⟨hc, hm, hp, hr, hlow, hhigh⟩ h
  have kept := step_stepKept h
  have mem := kept.memory ⟨hm, hlow, hhigh⟩
  exact ⟨kept.config ▸ hc, mem.ram, kept.status hp, kept.running hr, mem.low, mem.high⟩

/-- Settles O59: `step_stepKept`, whose shielded cells are the ones the statement names. -/
theorem stepKeepsConfigurationAndShieldedRam : Obligations.StepKeepsConfigurationAndShieldedRam := by
  intro s t h
  have kept := step_stepKept h
  exact ⟨kept.config, kept.armed, kept.shielded⟩

end Sys2Proof.Machine
end

section
/-! PROOF. The refusals: a term that no opcode encodes, an ill-formed configuration, a CPU step before the first reset
(log 10, 14, 22). -/

namespace Sys2Proof

/-- An instruction with the operand a mode takes has that mode. -/
theorem Instr.mode_of_operand {i : Instr} {d : Mode} {b1 b2 : Byte} (h : i.operand = d.operand b1 b2) :
    i.mode = d := by
  rw [Instr.mode, h]
  cases d <;> rfl

/-- The decoder builds terms that an opcode encodes (30 R73, R75). -/
theorem opcodeOf_decodeOp (op b1 b2 : Byte) : opcodeOf (decodeOp op b1 b2) = some op := by
  unfold decodeOp
  cases hl : lookupOpcode op with
  | none => simp [opcodeOf, Instr.fallbackByte, hl]
  | some r =>
    obtain ⟨hmem, hop⟩ := lookupOpcode_mem hl
    obtain ⟨i, hi⟩ := row_builds hmem b1 b2
    obtain ⟨hm, ho, hf⟩ := build_inv hi
    simp [hi, opcodeOf, hf, hm, Instr.mode_of_operand ho, lookupForm_of_opcode hl, hop]

/-- The well-formed terms are those that an opcode encodes (30 R74, R75). -/
theorem Instr.wf_eq_isSome_opcodeOf (i : Instr) : i.wf = (opcodeOf i).isSome := by
  cases hf : i.fallbackByte with
  | none =>
    have hform : i.formExists = (lookupForm i.mnemonic i.mode).isSome :=
      contains_modes i.mnemonic (mnemonic_of_fallbackByte hf) i.mode
    simp [Instr.wf, hform, Instr.fallbackIsUnofficial, opcodeOf, hf]
  | some op =>
    obtain rfl := eq_of_fallbackByte hf
    have hform : (Instr.unofficialNop op).formExists = true := rfl
    simp only [Instr.wf, hform, Instr.fallbackIsUnofficial, opcodeOf, hf, contains_unofficialBytes, Bool.true_and]
    cases lookupOpcode op <;> rfl

end Sys2Proof

namespace Sys2Proof.Machine

/-- An instruction is refused exactly when no opcode encodes it, and then by its name (log 22). -/
theorem exec_refused_iff {i : Instr} {s : State} {r : Refusal} :
    exec i s = .refused r ↔ opcodeOf i = none ∧ r = .noSuchForm i := by
  obtain ⟨body, hb⟩ := exec_eq_execute i s
  rw [hb]
  cases ho : opcodeOf i with
  | none => simp [execute_refused ho, eq_comm]
  | some op => simp [execute_next ho]

/-- The fetch builds a term that an opcode encodes. -/
theorem State.opcodeOf_fetchInstr (s : State) : opcodeOf s.fetchInstr.1 = some s.fetchByte.1 := by
  simp only [State.fetchInstr]
  split <;> exact opcodeOf_decodeOp _ _ _

/-- A CPU step is refused exactly before the first reset (log 14). -/
theorem State.cpuStep_refused_iff {s : State} {r : Refusal} :
    s.cpuStep = .refused r ↔ s.running = false ∧ r = .beforeReset := by
  have never : s.executeNext ≠ .refused r := fun h => by
    obtain ⟨ho, -⟩ := exec_refused_iff.mp h
    simp [s.opcodeOf_fetchInstr] at ho
  unfold State.cpuStep
  split
  · next hr => simp_all [eq_comm (a := r)]
  · next hr =>
    split
    · simp_all
    · split <;> simp_all

theorem tickAfter_refused_iff {before : Nat} {o : Host.Outcome State Fault Refusal} {r : Refusal} :
    tickAfter before o = .refused r ↔ o = .refused r := by
  cases o <;> simp [tickAfter]

/-- A call is refused exactly when it makes a CPU step before the first reset. -/
theorem State.serve_refused_iff {s : State} {call : Input} {r : Refusal} :
    s.serve call = .refused r ↔ s.running = false ∧ call ∈ [.system, .step] ∧ r = .beforeReset := by
  cases call <;> simp [State.serve, State.systemStep, tickAfter_refused_iff, State.cpuStep_refused_iff]

theorem State.advance_refused_iff {s : State} {r : Refusal} :
    s.advance = .refused r ↔
      s.running = false ∧ s.inputs.head? ∈ [none, some .system, some .step] ∧ r = .beforeReset := by
  unfold State.advance
  cases s.inputs with
  | nil => simp [State.systemStep, tickAfter_refused_iff, State.cpuStep_refused_iff]
  | cons call later => simp [State.serve_refused_iff]

/-- Settles O55: an instruction by `exec_refused_iff`, a step by its configuration and then its call. -/
theorem refusalsAreNamed : Obligations.RefusalsAreNamed := by
  refine ⟨fun i s r => ?_, fun s r => ?_⟩
  · rw [exec_refused_iff, i.wf_eq_isSome_opcodeOf, Option.isSome_eq_false_iff, Option.isNone_iff_eq_none]
  · unfold step
    cases hc : configWf s.cfg with
    | false => simp [eq_comm (a := r)]
    | true => simp [State.advance_refused_iff]

end Sys2Proof.Machine
end

section
/-! PROOF. RAM (10 R20): what a written cell reads, and that the canonical form is one. -/

namespace Sys2Proof.Machine

/-- The cell just written. -/
theorem Memory.read_write_same {lo a : Nat} {m : Memory} (h : Memory.wfFrom lo m = true) (v : Byte) :
    Memory.read (Memory.write m a v) a = v := by
  have put : ∀ m : Memory, Memory.read m a = ramInit → Memory.read (Memory.put a v m) a = v := fun m hm => by
    rw [Memory.read_put a v m a hm, if_pos rfl]
  induction m generalizing lo with
  | nil => exact put [] rfl
  | cons c m ih =>
    obtain ⟨b, w⟩ := c
    obtain ⟨-, -, -, hm⟩ := Memory.wfFrom_cons.mp h
    unfold Memory.write
    split
    · next hlt => exact put _ (by rw [Memory.read_cons, if_neg (by omega), Memory.read_below hm (by omega)])
    · split
      · next heq => exact put m (Memory.read_below hm (by omega))
      · next hne => rw [Memory.read_cons, if_neg (Ne.symm hne), ih hm]

/-- A canonical memory that reads alike at the address of a listed cell does not start above it. -/
theorem Memory.head_le_of_read_eq {lo lo' b b' : Nat} {w w' : Byte} {m m' : Memory}
    (h : Memory.wfFrom lo ((b, w) :: m) = true) (h' : Memory.wfFrom lo' ((b', w') :: m') = true)
    (hr : Memory.read ((b, w) :: m) b = Memory.read ((b', w') :: m') b) : b' ≤ b := by
  obtain ⟨-, -, hw, -⟩ := Memory.wfFrom_cons.mp h
  obtain ⟨-, hb', hw', hm'⟩ := Memory.wfFrom_cons.mp h'
  by_contra hlt
  have below : Memory.read ((b', w') :: m') b = ramInit :=
    Memory.read_below (lo := b') (Memory.wfFrom_cons.mpr ⟨le_rfl, hb', hw', hm'⟩) (by omega)
  rw [below, Memory.read_cons, if_pos rfl] at hr
  exact hw hr

/-- Two memories in canonical form that read alike are the same list. -/
theorem Memory.eq_of_read_eq {lo lo' : Nat} {m m' : Memory} (h : Memory.wfFrom lo m = true)
    (h' : Memory.wfFrom lo' m' = true) (hr : ∀ a, Memory.read m a = Memory.read m' a) : m = m' := by
  induction m generalizing lo lo' m' with
  | nil =>
    cases m' with
    | nil => rfl
    | cons c m' =>
      obtain ⟨b, w⟩ := c
      obtain ⟨-, -, hw, -⟩ := Memory.wfFrom_cons.mp h'
      exact absurd (by simpa [Memory.read_cons] using (hr b).symm) hw
  | cons c m ih =>
    obtain ⟨b, w⟩ := c
    obtain ⟨-, -, hw, hm⟩ := Memory.wfFrom_cons.mp h
    cases m' with
    | nil => exact absurd (by simpa [Memory.read_cons] using hr b) hw
    | cons c' m' =>
      obtain ⟨b', w'⟩ := c'
      obtain ⟨-, -, -, hm'⟩ := Memory.wfFrom_cons.mp h'
      obtain rfl : b = b' := le_antisymm
        (Memory.head_le_of_read_eq h' h (hr b').symm) (Memory.head_le_of_read_eq h h' (hr b))
      obtain rfl : w = w' := by simpa [Memory.read_cons] using hr b
      have tails : ∀ a, Memory.read m a = Memory.read m' a := fun a => by
        by_cases hab : a = b
        · rw [Memory.read_below hm (by omega), Memory.read_below hm' (by omega)]
        · simpa [Memory.read_cons, Ne.symm hab] using hr a
      rw [ih hm hm' tails]

/-- Settles O6: a written cell by induction on the list, the others by `read_write_ne`; equal contents make equal lists
because the first cells of two canonical lists that read alike have one address. -/
theorem ramIsAnArrayOfBytes : Obligations.RamIsAnArrayOfBytes := by
  refine ⟨fun m a v b h => ?_, fun m m' h h' hr => Memory.eq_of_read_eq h h' hr⟩
  split
  · next heq => rw [heq, Memory.read_write_same h]
  · next hne => exact Memory.read_write_ne m a v b hne

end Sys2Proof.Machine
end

section
/-! PROOF. The machine right after reset (10 R24, 70 R270). -/

namespace Sys2Proof.Machine

/-- A 16-bit read of plain addresses is the two RAM cells and changes nothing. -/
theorem State.read16_plain {s : State} {a : Word} (h : plainAddr s.cfg a = true)
    (h' : plainAddr s.cfg (a + 1) = true) : s.read16 a = (littleEndian (s.cell a) (s.cell (a + 1)), s) := by
  simp only [State.read16, State.busRead_plain h, State.busRead_plain h']

/-- Settles O52: the reset vector lies in plain RAM under the default configuration, so it reads 0x0000, and every other
register of the CPU is overwritten. -/
theorem resetStateComesFromPowerOn : Obligations.ResetStateComesFromPowerOn := by
  intro sp p pc cycles nmi irq
  have hv : plainAddr Config.default resetVector = true := by decide
  have hv' : plainAddr Config.default (resetVector + 1) = true := by decide
  rw [State.doReset_shape, State.read16_plain hv hv']
  simp [State.powerOn, State.reset, State.cell, ramInit, littleEndian]

/-- Settles O56, field by field. -/
theorem resetSatisfiesTheInvariant : Obligations.ResetSatisfiesTheInvariant where
  config := by decide
  memory := Memory.wf_nil
  status := by decide
  running := rfl
  counter := by decide

end Sys2Proof.Machine
end

section
/-! PROOF. A well-formed configuration (20 R44, R45; 93 U2, U3) in numbers, and which hooks and windows it may still
take. -/

namespace Sys2Proof.Machine

/-- `rangesDisjoint` says that the ranges lie apart pair by pair. -/
theorem rangesDisjoint_iff (rs : List (Nat × Nat)) :
    rangesDisjoint rs = true ↔ rs.Pairwise fun r q => r.2 < q.1 ∨ q.2 < r.1 := by
  induction rs with
  | nil => simp [rangesDisjoint]
  | cons r rs ih => simp [rangesDisjoint, ih]

/-- Two hooks share no address. -/
def HooksApart (h g : Hook) : Prop :=
  h.stop < g.start ∨ g.stop < h.start

/-- Two windows, where neither is empty, share no address. -/
def RomsApart (w v : RomWindow) : Prop :=
  w.bytes ≠ [] → v.bytes ≠ [] → w.start + w.bytes.length ≤ v.start ∨ v.start + v.bytes.length ≤ w.start

theorem hookRanges_disjoint_iff (hs : List Hook) :
    rangesDisjoint (hookRanges hs) = true ↔ hs.Pairwise HooksApart := by
  rw [rangesDisjoint_iff, hookRanges, List.pairwise_map]
  rfl

theorem romRanges_disjoint_iff (ws : List RomWindow) :
    rangesDisjoint (romRanges ws) = true ↔ ws.Pairwise RomsApart := by
  rw [rangesDisjoint_iff, romRanges, List.pairwise_map, List.pairwise_filter]
  have last : ∀ w v : RomWindow, w.bytes ≠ [] →
      (w.start + w.bytes.length - 1 < v.start ↔ w.start + w.bytes.length ≤ v.start) := fun w v hw => by
    have := List.length_pos_of_ne_nil hw
    omega
  refine List.Pairwise.iff fun w v => ?_
  simp +contextual [RomsApart, last]

theorem hooksWf_iff (hs : List Hook) :
    hooksWf hs = true ↔ (∀ h ∈ hs, hookWf h = true) ∧ hs.Pairwise HooksApart ∧
      hs.countP (fun h => decide (h.device = .timer)) ≤ 1 := by
  simp [hooksWf, hookRanges_disjoint_iff, and_assoc]

theorem romsWf_iff (ws : List RomWindow) :
    romsWf ws = true ↔ (∀ w ∈ ws, w.start + w.bytes.length ≤ 65536) ∧ ws.Pairwise RomsApart := by
  simp [romsWf, romRanges_disjoint_iff]

theorem configWf_iff (c : Config) :
    configWf c = true ↔ romsWf c.romWindows = true ∧ hooksWf c.hooks = true ∧ c.timerRegLo ≠ c.timerRegHi ∧
      cyclesWf c.cycles = true := by
  simp [configWf, and_assoc]

theorem hookWf_iff (h : Hook) :
    hookWf h = true ↔ h.start ≤ h.stop ∧ h.stop ≤ 0xFFFF ∧
      (h.device = .timer → h.stop = h.start + 7 ∧ h.hasWrite = true) := by
  simp [hookWf, and_assoc, imp_iff_not_or]

/-! ### Registration -/

/-- What a hook must meet to join well-formed ones. -/
theorem hooksWf_append_singleton {hs : List Hook} (hwf : hooksWf hs = true) (h : Hook) :
    hooksWf (hs ++ [h]) = true ↔ hookWf h = true ∧ (∀ g ∈ hs, HooksApart g h) ∧
      (h.device = .timer → ∀ g ∈ hs, g.device ≠ .timer) := by
  obtain ⟨hall, hapart, hcount⟩ := (hooksWf_iff hs).mp hwf
  have count : (hs ++ [h]).countP (fun g => decide (g.device = .timer)) ≤ 1 ↔
      (h.device = .timer → ∀ g ∈ hs, g.device ≠ .timer) := by
    by_cases ht : h.device = .timer
    · simp [ht, List.countP_append, List.countP_eq_zero]
    · simpa [ht, List.countP_append] using hcount
  have all : (∀ g ∈ hs ++ [h], hookWf g = true) ↔ hookWf h = true := by
    simpa [or_imp, forall_and] using fun _ => hall
  have apart : (hs ++ [h]).Pairwise HooksApart ↔ ∀ g ∈ hs, HooksApart g h := by
    simp [List.pairwise_append, hapart]
  rw [hooksWf_iff, all, apart, count]

/-- What a window must meet to join well-formed ones. -/
theorem romsWf_append_singleton {ws : List RomWindow} (hwf : romsWf ws = true) (w : RomWindow) :
    romsWf (ws ++ [w]) = true ↔ w.start + w.bytes.length ≤ 65536 ∧ ∀ v ∈ ws, RomsApart v w := by
  obtain ⟨hall, hapart⟩ := (romsWf_iff ws).mp hwf
  have all : (∀ v ∈ ws ++ [w], v.start + v.bytes.length ≤ 65536) ↔ w.start + w.bytes.length ≤ 65536 := by
    simpa [or_imp, forall_and] using fun _ => hall
  have apart : (ws ++ [w]).Pairwise RomsApart ↔ ∀ v ∈ ws, RomsApart v w := by
    simp [List.pairwise_append, hapart]
  rw [romsWf_iff, all, apart]

theorem hookIO_isSome (h : Hook) (c : Config) : (hookIO h c).isSome = hooksWf (c.hooks ++ [h]) := by
  unfold hookIO
  split <;> simp_all

theorem mapROM_isSome (start : Nat) (bytes : List Byte) (c : Config) :
    (mapROM start bytes c).isSome = romsWf (c.romWindows ++ [⟨start, bytes⟩]) := by
  unfold mapROM
  split <;> simp_all

/-- An accepted hook joins the others at the end. -/
theorem hookIO_inv {h : Hook} {c c' : Config} (hio : hookIO h c = some c') :
    hooksWf (c.hooks ++ [h]) = true ∧ c' = { c with hooks := c.hooks ++ [h] } := by
  unfold hookIO at hio
  split at hio
  · next hwf => cases hio; exact ⟨hwf, rfl⟩
  · cases hio

/-- An accepted window joins the others at the end. -/
theorem mapROM_inv {start : Nat} {bytes : List Byte} {c c' : Config} (hmap : mapROM start bytes c = some c') :
    romsWf (c.romWindows ++ [⟨start, bytes⟩]) = true ∧
      c' = { c with romWindows := c.romWindows ++ [⟨start, bytes⟩] } := by
  unfold mapROM at hmap
  split at hmap
  · next hwf => cases hmap; exact ⟨hwf, rfl⟩
  · cases hmap

/-- Settles O9: the lists that one more entry keeps well formed, in numbers; the other parts of the configuration stay
as they were. -/
theorem registrationRefusesMalformedRanges : Obligations.RegistrationRefusesMalformedRanges := by
  intro c hc
  obtain ⟨hroms, hhooks, hregs, hcycles⟩ := (configWf_iff c).mp hc
  refine ⟨fun h => ?_, fun start bytes => ?_, fun h c' hio => ?_, fun start bytes c' hmap => ?_⟩
  · rw [hookIO_isSome, hooksWf_append_singleton hhooks, hookWf_iff]
    have apart : (∀ g ∈ c.hooks, HooksApart g h) ↔ ∀ g ∈ c.hooks, h.stop < g.start ∨ g.stop < h.start :=
      forall₂_congr fun _ _ => or_comm
    rw [apart]
    tauto
  · rw [mapROM_isSome, romsWf_append_singleton hroms]
    refine and_congr_right fun _ => ⟨fun h hb w hw hwb => (h w hw hwb hb).symm, fun h w hw hwb hb => (h hb w hw hwb).symm⟩
  · obtain ⟨hwf, rfl⟩ := hookIO_inv hio
    exact ⟨(configWf_iff _).mpr ⟨hroms, hwf, hregs, hcycles⟩, rfl⟩
  · obtain ⟨hwf, rfl⟩ := mapROM_inv hmap
    exact ⟨(configWf_iff _).mpr ⟨hwf, hhooks, hregs, hcycles⟩, rfl⟩

end Sys2Proof.Machine
end

section
/-! PROOF. The bus under a well-formed configuration (20 R41 to R43): one hook at most and one ROM window at most cover
an address, so registration order decides nothing. -/

namespace Sys2Proof.Machine

theorem hookCovers_iff (h : Hook) (a : Word) : hookCovers h a = true ↔ h.start ≤ a.toNat ∧ a.toNat ≤ h.stop := by
  simp [hookCovers]

theorem romCovers_iff (w : RomWindow) (a : Word) :
    romCovers w a = true ↔ w.start ≤ a.toNat ∧ a.toNat < w.start + w.bytes.length := by
  simp [romCovers]

theorem HooksApart.symm {h g : Hook} (hapart : HooksApart h g) : HooksApart g h :=
  Or.symm hapart

/-- A hook that lies apart from one that covers an address does not cover it. -/
theorem HooksApart.not_covers {h g : Hook} {a : Word} (hapart : HooksApart g h) (hcov : hookCovers h a = true) :
    hookCovers g a = false := by
  rw [hookCovers_iff] at hcov
  rw [Bool.eq_false_iff, Ne, hookCovers_iff]
  unfold HooksApart at hapart
  omega

/-- A window that lies apart from one that covers an address does not cover it: a window that covers one is not empty. -/
theorem RomsApart.not_covers {w v : RomWindow} {a : Word} (hapart : RomsApart v w) (hcov : romCovers w a = true) :
    romCovers v a = false := by
  rw [romCovers_iff] at hcov
  rw [Bool.eq_false_iff, Ne, romCovers_iff]
  intro hcov'
  have hv : v.bytes ≠ [] := List.ne_nil_of_length_pos (by omega)
  have hw : w.bytes ≠ [] := List.ne_nil_of_length_pos (by omega)
  have := hapart hv hw
  omega

/-- Of a list whose elements are pairwise related, the search finds the one whose relatives all fail the test. -/
theorem find?_eq_some_of_pairwise {α : Type} {R : α → α → Prop} {p : α → Bool} {l : List α} {x : α}
    (hl : l.Pairwise R) (hR : ∀ y, R y x → p y = false) (hx : x ∈ l) (hp : p x = true) : l.find? p = some x := by
  induction hl with
  | nil => cases hx
  | @cons y l hy _ ih =>
    obtain rfl | hx := List.mem_cons.mp hx
    · exact List.find?_cons_of_pos hp
    · rw [List.find?_cons_of_neg (by simp [hR y (hy x hx)]), ih hx]

/-! ### Reads -/

/-- Where the hooks lie apart, the one that covers the address is the only one asked (20 R43). -/
theorem State.hookRead_of_covers {hs : List Hook} {h : Hook} {a : Word} (s : State) (hapart : hs.Pairwise HooksApart)
    (hmem : h ∈ hs) (hcov : hookCovers h a = true) (hread : h.hasRead = true) :
    State.hookRead a hs s = s.deviceRead h.device a := by
  induction hapart with
  | nil => cases hmem
  | @cons k hs hk _ ih =>
    obtain rfl | hmem := List.mem_cons.mp hmem
    · have silent (u : State) : State.hookRead a hs u = (none, u) :=
        State.hookRead_silent a hs u fun g hg hcov' => by simp [(hk g hg).symm.not_covers hcov] at hcov'
      simp only [State.hookRead, hcov, hread, Bool.and_self, if_true, silent]
      split
      · next v hv => rw [← hv]
      · next hv => rw [← hv]
    · simp [State.hookRead, (hk h hmem).not_covers hcov, ih hmem]

/-- A read at an address that a read handler covers: its answer, or what lies under the hooks (20 R41). -/
theorem State.busRead_of_covers {s : State} {h : Hook} {a : Word} (hapart : s.cfg.hooks.Pairwise HooksApart)
    (hmem : h ∈ s.cfg.hooks) (hcov : hookCovers h a = true) (hread : h.hasRead = true) :
    s.busRead a = ((s.deviceRead h.device a).1.getD (s.underHooks a), (s.deviceRead h.device a).2) := by
  rw [State.busRead, State.hookRead_of_covers s hapart hmem hcov hread]
  rw [s.deviceRead_shape]
  rfl

/-- The byte of the ROM windows is that of the first that covers the address. -/
theorem romByte_eq_find? (ws : List RomWindow) (a : Word) :
    romByte ws a = (ws.find? fun w => romCovers w a).bind fun w => w.bytes[a.toNat - w.start]? := by
  induction ws with
  | nil => rfl
  | cons w ws ih => cases hcov : romCovers w a <;> simp [romByte, hcov, ih]

/-- Under the hooks, the byte of the window that covers the address (20 R41, R44). -/
theorem State.underHooks_of_covers {s : State} {w : RomWindow} {a : Word} (hapart : s.cfg.romWindows.Pairwise RomsApart)
    (hmem : w ∈ s.cfg.romWindows) (hcov : romCovers w a = true) :
    w.bytes[a.toNat - w.start]? = some (s.underHooks a) := by
  have found : s.cfg.romWindows.find? (fun w => romCovers w a) = some w :=
    find?_eq_some_of_pairwise hapart (fun _ hv => hv.not_covers hcov) hmem hcov
  have inside : a.toNat - w.start < w.bytes.length := by
    rw [romCovers_iff] at hcov
    omega
  simp [State.underHooks, romByte_eq_find?, found, inside]

/-- Under the hooks, the RAM cell where no window covers the address (20 R41). -/
theorem State.underHooks_of_no_rom {s : State} {a : Word} (h : ∀ w ∈ s.cfg.romWindows, romCovers w a = false) :
    s.underHooks a = s.cell a := by
  have none_found : s.cfg.romWindows.find? (fun w => romCovers w a) = none :=
    List.find?_eq_none.mpr fun w hw => by simp [h w hw]
  simp [State.underHooks, romByte_eq_find?, none_found]

/-- Settles O7: the hook that covers the address is the only one asked, and the window that covers it the one found. -/
theorem busReadPriority : Obligations.BusReadPriority := by
  intro s a hc
  obtain ⟨hroms, hhooks, -, -⟩ := (configWf_iff s.cfg).mp hc
  obtain ⟨-, hooksApart, -⟩ := (hooksWf_iff _).mp hhooks
  obtain ⟨-, romsApart⟩ := (romsWf_iff _).mp hroms
  refine ⟨fun h hh id hcov hread hdev answer hanswer => ?_, State.busRead_silent a s,
    fun w hw hcov => State.underHooks_of_covers romsApart hw hcov, State.underHooks_of_no_rom⟩
  rw [State.busRead_of_covers hooksApart hh hcov hread, hdev]
  simp only [State.deviceRead, State.takeAnswer, ← hanswer]
  exact ⟨trivial, fun v hv => by rw [hv]; rfl, fun hn => by rw [hn]; rfl⟩

/-! ### Writes -/

/-- The hook with a write handler that covers the address takes the write (20 R42, R43). -/
theorem State.busWrite_of_hook {s : State} {h : Hook} {a : Word} (hapart : s.cfg.hooks.Pairwise HooksApart)
    (hmem : h ∈ s.cfg.hooks) (hcov : hookCovers h a = true) (hwrite : h.hasWrite = true) (v : Byte) :
    s.busWrite a v = s.deviceWrite h a v := by
  have found : s.cfg.hooks.find? (fun h => hookCovers h a && h.hasWrite) = some h :=
    find?_eq_some_of_pairwise hapart (fun g hg => by simp [hg.not_covers hcov]) hmem (by simp [hcov, hwrite])
  simp [State.busWrite, found]

/-- With no write handler at the address, a ROM window discards the write, else RAM takes it (20 R42). -/
theorem State.busWrite_of_no_hook {s : State} {a : Word}
    (h : ∀ k ∈ s.cfg.hooks, hookCovers k a = true → k.hasWrite = false) (v : Byte) :
    s.busWrite a v = if s.cfg.romWindows.any (fun w => romCovers w a) then s
      else { s with ram := Memory.write s.ram a.toNat v } := by
  have none_found : s.cfg.hooks.find? (fun h => hookCovers h a && h.hasWrite) = none :=
    List.find?_eq_none.mpr fun k hk => by simpa using h k hk
  simp [State.busWrite, none_found]

/-- Settles O8: the hook found is the one that covers the address; with none, the ROM windows and then the cell. -/
theorem busWritePriority : Obligations.BusWritePriority := by
  intro s a v hc hm
  obtain ⟨-, hhooks, -, -⟩ := (configWf_iff s.cfg).mp hc
  obtain ⟨-, hooksApart, -⟩ := (hooksWf_iff _).mp hhooks
  refine ⟨fun h hh hcov hwrite => ?_, fun hnone => ?_⟩
  · rw [State.busWrite_of_hook hooksApart hh hcov hwrite]
    refine ⟨fun i hdev hi => ?_, fun id hdev => by simp [State.deviceWrite, hdev]⟩
    have register : Fin.ofNat 8 (a.toNat - h.start) = i := by
      rw [hi, Nat.add_sub_cancel_left]
      exact Fin.ofNat_val_eq_self i
    simp only [State.deviceWrite, hdev, register]
  · rw [State.busWrite_of_no_hook hnone]
    refine ⟨fun ⟨w, hw, hcov⟩ => if_pos (List.any_eq_true.mpr ⟨w, hw, hcov⟩), fun hrom => ?_⟩
    rw [if_neg (by simpa using hrom)]
    refine ⟨rfl, fun b => ?_⟩
    simpa [State.cell, BitVec.toNat_inj] using ramIsAnArrayOfBytes.1 s.ram a.toNat v b.toNat hm

end Sys2Proof.Machine
end

section
/-! PROOF. Which instructions leave RAM and the timer alone (20 R41, R52): those that neither store nor push. -/

namespace Sys2Proof.Machine

theorem MemoryKept.of_eq {s t : State} (hr : t.ram = s.ram) (ht : t.timer = s.timer) : MemoryKept s t where
  cells a := by simp only [State.cell, hr]
  timer := ht

theorem Operand.eq_acc_of_mode {o : Operand} (h : o.mode = .acc) : o = .acc := by
  cases o with
  | acc => rfl
  | _ => cases h

/-- The accumulator form of a store writes `A` alone (40 R107). -/
theorem executeStore_acc_memoryKept {i : Instr} {s t : State} {v : State → Byte}
    (h : executeOperand i .acc s (fun l u => u.storeOperand (v u) l) = .next t) : MemoryKept s t := by
  obtain ⟨io, n, rfl⟩ := executeOperand_inv_io h
  exact .of_eq rfl rfl

/-- The accumulator form of a read-modify-write keeps memory where its operation does (40 R107, 43 R164). -/
theorem executeModify_acc_memoryKept {i : Instr} {s t : State} {f : Byte → State → Byte × State}
    (hf : ∀ v u, MemoryKept u (f v u).2) (h : executeModify i .acc s f = .next t) : MemoryKept s t := by
  obtain ⟨v, io, n, rfl⟩ := executeModify_inv_io h
  obtain ⟨hcells, htimer⟩ := hf v { s with io := io }
  exact ⟨hcells, htimer⟩

/-- An instruction that is no store, read-modify-write or push makes no bus write; an accumulator form stores in `A`. -/
theorem exec_memoryKept {i : Instr} {s t : State} (h : exec i s = .next t)
    (hi : i.mnemonic ∉ memoryWriters ∨ i.mode = .acc) : MemoryKept s t := by
  have acc (hw : i.mnemonic ∈ memoryWriters) : i.mode = .acc := hi.resolve_left fun hn => hn hw
  have encoded := opcodeOf_ne_none_of_exec h
  unfold exec at h
  cases i with
  | lda o | ldx o | ldy o | adc o | sbc o | cmp o | cpx o | cpy o | and o | ora o | eor o | bit o =>
    obtain ⟨v, io, n, rfl⟩ := executeRead_inv_io h
    exact .of_eq rfl rfl
  | sta o | stx o | sty o =>
    obtain rfl := Operand.eq_acc_of_mode (acc (by simp [Instr.mnemonic, memoryWriters]))
    exact executeStore_acc_memoryKept h
  | inc o | dec o | asl o | lsr o | rol o | ror o =>
    obtain rfl := Operand.eq_acc_of_mode (acc (by simp [Instr.mnemonic, memoryWriters]))
    exact executeModify_acc_memoryKept (fun _ _ => .of_eq rfl rfl) h
  | jsr o =>
    obtain rfl := Operand.eq_acc_of_mode (acc (by simp [Instr.mnemonic, memoryWriters]))
    exact absurd (by decide) encoded
  | pha | php | brk => cases acc (by decide)
  | jmp o =>
    obtain ⟨io, n, rfl⟩ := executeOperand_inv_io h
    rw [State.jumpTo_shape]
    exact .of_eq rfl rfl
  | bcc o | bcs o | beq o | bmi o | bne o | bpl o | bvc o | bvs o =>
    obtain ⟨io, n, rfl⟩ := executeOperand_inv_io h
    rw [State.branchIf_shape]
    exact .of_eq rfl rfl
  | tax | tay | txa | tya | tsx | txs | inx | iny | dex | dey | clc | sec | cli | sei | cld | sed | clv | nop
  | unofficialNop _ =>
    obtain ⟨n, rfl⟩ := executeImplied_inv_cycles h
    exact .of_eq rfl rfl
  | pla | plp | rts | rti =>
    obtain ⟨n, rfl⟩ := executeImplied_inv_cycles h
    exact .of_eq (by simp) (by simp)

/-- Settles O43: `exec_memoryKept`. -/
theorem onlyStoresAndPushesWriteMemory : Obligations.OnlyStoresAndPushesWriteMemory :=
  fun _ _ _ h hi => exec_memoryKept h hi

end Sys2Proof.Machine
end

section
/-! PROOF. The decoder by the operand bytes it takes, and the encoder as its inverse (30 R70 to R75); the unofficial
bytes; the cycles of a descriptor. -/

namespace Sys2Proof

/-! ### What the decoder answers -/

/-- An instruction has at most two operand bytes (30 R70). -/
theorem Mode.operandBytes_le (d : Mode) : d.operandBytes ≤ 2 := by
  cases d <;> decide

/-- The operand bytes of a mode are none, one or two. -/
theorem Mode.operands_cases {d : Mode} {operands : List Byte} (hlen : operands.length = d.operandBytes) :
    operands = [] ∨ (∃ b, operands = [b]) ∨ ∃ lo hi, operands = [lo, hi] := by
  have := d.operandBytes_le
  rw [← List.length_eq_zero_iff, ← List.length_eq_one_iff, ← List.length_eq_two]
  omega

/-- Before enough operand bytes, the decoder takes as many as the opcode byte's mode has, and no more (30 R71, R73). -/
theorem decode_cons_append {op : Byte} {operands : List Byte}
    (hlen : operands.length = (descriptor op).mode.operandBytes) (rest : List Byte) :
    decode (op :: (operands ++ rest)) =
      .instr (decodeOp op (operands.headD 0) (operands.tail.headD 0)) rest := by
  obtain rfl | ⟨b, rfl⟩ | ⟨lo, hi, rfl⟩ := Mode.operands_cases hlen <;> simp [decode, ← hlen]

/-- All that the decoder reads: an opcode byte and the operand bytes of its mode (30 R70, R71). -/
theorem decode_inv {bs rest : List Byte} {i : Instr} (h : decode bs = .instr i rest) :
    ∃ op operands, operands.length = (descriptor op).mode.operandBytes ∧ bs = op :: (operands ++ rest) ∧
      i = decodeOp op (operands.headD 0) (operands.tail.headD 0) := by
  cases bs with
  | nil => cases h
  | cons op after =>
    simp only [decode] at h
    split at h
    · next hn => cases h; exact ⟨op, [], hn.symm, rfl, rfl⟩
    · next b1 _ hn => cases h; exact ⟨op, [b1], hn.symm, rfl, rfl⟩
    · next b1 b2 _ hn => cases h; exact ⟨op, [b1, b2], hn.symm, rfl, rfl⟩
    · cases h

/-! ### The descriptor of an encoded instruction -/

theorem descriptor_of_none {op : Byte} (h : lookupOpcode op = none) :
    descriptor op = ⟨op, .unofficialNop, .imp, 2, false⟩ := by
  rw [descriptor, h, Option.getD_none]

theorem descriptor_of_some {op : Byte} {r : Row} (h : lookupOpcode op = some r) : descriptor op = r := by
  rw [descriptor, h, Option.getD_some]

/-- An encoded instruction is the fallback of a byte without a row, or its form has the row of its opcode byte. -/
theorem opcodeOf_inv {i : Instr} {op : Byte} (h : opcodeOf i = some op) :
    (i = .unofficialNop op ∧ lookupOpcode op = none) ∨
    (∃ r, i.fallbackByte = none ∧ lookupOpcode op = some r ∧ r.mnemonic = i.mnemonic ∧ r.mode = i.mode) := by
  unfold opcodeOf at h
  split at h
  · next op' hf =>
    obtain ⟨hl, hop⟩ := Option.ite_none_right_eq_some.mp h
    obtain rfl := Option.some.inj hop
    exact .inl ⟨eq_of_fallbackByte hf, Option.isNone_iff_eq_none.mp hl⟩
  · next hf =>
    obtain ⟨r, hr, rfl⟩ := Option.map_eq_some_iff.mp h
    exact .inr ⟨r, hf, lookupOpcode_of_form hr, (lookupForm_mem hr).2⟩

/-- The descriptor of an instruction's opcode byte has its mnemonic and its mode. -/
theorem descriptor_of_opcodeOf {i : Instr} {op : Byte} (h : opcodeOf i = some op) :
    (descriptor op).mnemonic = i.mnemonic ∧ (descriptor op).mode = i.mode := by
  obtain ⟨rfl, hl⟩ | ⟨r, -, hl, hform⟩ := opcodeOf_inv h
  · rw [descriptor_of_none hl]
    exact ⟨rfl, rfl⟩
  · rwa [descriptor_of_some hl]

theorem encode_of_opcodeOf {i : Instr} {op : Byte} (h : opcodeOf i = some op) : encode i = op :: i.operandBytes := by
  rw [encode, h]

theorem Instr.wf_iff_exists_opcodeOf (i : Instr) : i.wf = true ↔ ∃ op, opcodeOf i = some op := by
  rw [i.wf_eq_isSome_opcodeOf, Option.isSome_iff_exists]

/-! ### Operand bytes, back and forth -/

/-- An official instruction is what its mnemonic builds from its operand. -/
theorem build_mnemonic_operand {i : Instr} (h : i.fallbackByte = none) : i.mnemonic.build i.operand = some i := by
  cases i with
  | unofficialNop op => cases h
  | _ => rfl

/-- An opcode byte and an instruction's own operand bytes decode to the instruction. -/
theorem decodeOp_operandBytes {i : Instr} {op : Byte} (h : opcodeOf i = some op) :
    decodeOp op (i.operandBytes.headD 0) (i.operandBytes.tail.headD 0) = i := by
  obtain ⟨rfl, hl⟩ | ⟨r, hf, hl, hm, hd⟩ := opcodeOf_inv h
  · simp [decodeOp, hl]
  · obtain ⟨-, hoperand⟩ := operand_of_bytes i
    simp only [decodeOp, hl, hm, hd, hoperand, build_mnemonic_operand hf, Option.getD_some]

/-- The operand that a mode assembles from as many bytes as it takes is written in these bytes (30 R72). -/
theorem Instr.operandBytes_of_operand {i : Instr} {d : Mode} {operands : List Byte}
    (ho : i.operand = d.operand (operands.headD 0) (operands.tail.headD 0))
    (hlen : operands.length = d.operandBytes) : i.operandBytes = operands := by
  rw [Instr.operandBytes, ho]
  obtain rfl | ⟨b, rfl⟩ | ⟨lo, hi, rfl⟩ := Mode.operands_cases hlen <;>
    cases d <;> simp [Mode.operandBytes, Mode.operand, Operand.bytes] at hlen ⊢

/-- The instruction decoded from an opcode byte and its operand bytes has these operand bytes. -/
theorem operandBytes_decodeOp {op : Byte} {operands : List Byte}
    (hlen : operands.length = (descriptor op).mode.operandBytes) :
    (decodeOp op (operands.headD 0) (operands.tail.headD 0)).operandBytes = operands := by
  cases hl : lookupOpcode op with
  | none =>
    rw [descriptor_of_none hl] at hlen
    obtain rfl := List.eq_nil_of_length_eq_zero hlen
    simp [decodeOp, hl, Instr.operandBytes, Instr.operand]
  | some r =>
    rw [descriptor_of_some hl] at hlen
    obtain ⟨i, hi⟩ := row_builds (lookupOpcode_mem hl).1 (operands.headD 0) (operands.tail.headD 0)
    obtain ⟨-, ho, -⟩ := build_inv hi
    simp only [decodeOp, hl, hi, Option.getD_some]
    exact Instr.operandBytes_of_operand ho hlen

/-- Settles O1: the bytes of the operand are those the opcode byte's mode takes, and they decode to the instruction. -/
theorem decodeReadsBackEncode : Obligations.DecodeReadsBackEncode := by
  intro i rest hwf
  obtain ⟨op, ho⟩ := i.wf_iff_exists_opcodeOf.mp hwf
  have hlen : i.operandBytes.length = (descriptor op).mode.operandBytes := by
    rw [(descriptor_of_opcodeOf ho).2, (operand_of_bytes i).1]
  rw [encode_of_opcodeOf ho, List.cons_append, decode_cons_append hlen, decodeOp_operandBytes ho]

/-- Settles O2: the bytes read are an opcode byte and operand bytes, which the decoded instruction has as its own. -/
theorem decodedBytesAreTheEncoding : Obligations.DecodedBytesAreTheEncoding := by
  intro bs i rest h
  obtain ⟨op, operands, hlen, rfl, rfl⟩ := decode_inv h
  have ho := opcodeOf_decodeOp op (operands.headD 0) (operands.tail.headD 0)
  refine ⟨(Instr.wf_iff_exists_opcodeOf _).mpr ⟨op, ho⟩, ?_⟩
  rw [encode_of_opcodeOf ho, operandBytes_decodeOp hlen, List.cons_append]

/-- Settles O3: `Instr.wf_eq_isSome_opcodeOf`, by the modes of each mnemonic and the bytes without a row. -/
theorem wellFormedIffSomeOpcodeEncodes : Obligations.WellFormedIffSomeOpcodeEncodes := by
  intro i
  rw [i.wf_eq_isSome_opcodeOf]

/-! ### The unofficial opcode bytes -/

theorem mem_unofficialBytes_iff (op : Byte) : op ∈ unofficialBytes ↔ lookupOpcode op = none := by
  rw [← List.contains_iff_mem, contains_unofficialBytes, Option.isNone_iff_eq_none]

/-- A byte without a row decodes to its fallback and leaves all that follows (30 R75; 92 D18, log 19). -/
theorem decode_fallback {op : Byte} (h : lookupOpcode op = none) (rest : List Byte) :
    decode (op :: rest) = .instr (.unofficialNop op) rest := by
  have hlen : ([] : List Byte).length = (descriptor op).mode.operandBytes := by rw [descriptor_of_none h]; rfl
  simpa [decodeOp, h] using decode_cons_append hlen rest

/-- Two bytes after the opcode byte are enough for every mode (30 R71). -/
theorem decode_two_operand_bytes (op b1 b2 : Byte) (rest : List Byte) :
    ∃ i after, decode (op :: b1 :: b2 :: rest) = .instr i after := by
  have enough : (descriptor op).mode.operandBytes ≤ (b1 :: b2 :: rest).length :=
    (descriptor op).mode.operandBytes_le.trans (by simp)
  rw [← List.take_append_drop (descriptor op).mode.operandBytes (b1 :: b2 :: rest),
    decode_cons_append (List.length_take_of_le enough)]
  exact ⟨_, _, rfl⟩

/-- Settles O4: the unofficial bytes are counted and are those without a row. -/
theorem unofficialOpcodesAreTheFallback : Obligations.UnofficialOpcodesAreTheFallback := by
  refine ⟨by decide, fun op hop rest => ?_, fun op hop => ?_, decode_two_operand_bytes⟩
  · have norow := (mem_unofficialBytes_iff op).mp hop
    exact ⟨decode_fallback norow rest, descriptor_of_none norow⟩
  · obtain ⟨r, hr⟩ := Option.ne_none_iff_exists'.mp (mt (mem_unofficialBytes_iff op).mpr hop)
    exact ⟨r, lookupOpcode_mem hr⟩

/-- Settles O5: each word evaluated. -/
theorem sampleWordsDecode : Obligations.SampleWordsDecode := by
  unfold Obligations.SampleWordsDecode
  decide

end Sys2Proof

namespace Sys2Proof.Machine

/-! ### Cycles -/

/-- A descriptor's cycles as `CyclesFollowTheTable` reads them: `baseCycles`, and the page-cross flag for the read-type
instructions in the modes that can cross a page (30 R74, 40 R106). -/
def CyclesAsRead (r : Row) : Prop :=
  r.base = baseCycles r.mnemonic r.mode ∧
    (r.pageCross = true ↔ r.mnemonic ∈ [.lda, .ldx, .ldy, .adc, .sbc, .and, .ora, .eor, .cmp] ∧
      r.mode ∈ [.absX, .absY, .indY])

/-- The rows agree with the second reading of 30 R74. -/
theorem opcodeTable_cyclesAsRead : ∀ r ∈ opcodeTable, CyclesAsRead r := by
  unfold CyclesAsRead
  decide +kernel

/-- So does every descriptor: the fallback takes 2 cycles and its implied mode crosses no page (30 R75). -/
theorem descriptor_cyclesAsRead (op : Byte) : CyclesAsRead (descriptor op) := by
  cases hl : lookupOpcode op with
  | none =>
    rw [descriptor_of_none hl]
    exact ⟨rfl, by simp⟩
  | some r =>
    rw [descriptor_of_some hl]
    exact opcodeTable_cyclesAsRead r (lookupOpcode_mem hl).1

/-- The cycles of an encoded instruction are those of the entry at its opcode byte (40 R91). -/
theorem State.cost_of_opcodeOf {i : Instr} {op : Byte} (h : opcodeOf i = some op) (s : State) (crossed : Bool) :
    s.cost i crossed =
      (s.cycleEntry op).base + (if crossed = true ∧ (s.cycleEntry op).pageCross = true then 1 else 0) := by
  simp [State.cost, h, State.cyclesOf, and_comm]

/-- Settles O14: the cycle entry is the descriptor's by default, which is `descriptor_cyclesAsRead`, else
that of the other table. -/
theorem cyclesFollowTheTable : Obligations.CyclesFollowTheTable := by
  intro i s crossed hwf
  obtain ⟨op, ho⟩ := i.wf_iff_exists_opcodeOf.mp hwf
  rw [s.cost_of_opcodeOf ho]
  refine ⟨fun hdefault => ?_, fun t op' operands e htable hencode hentry => ?_⟩
  · obtain ⟨hmnemonic, hmode⟩ := descriptor_of_opcodeOf ho
    obtain ⟨hbase, hcross⟩ := descriptor_cyclesAsRead op
    simp only [State.cycleEntry, hdefault, hbase, hcross, hmnemonic, hmode]
  · rw [encode_of_opcodeOf ho, List.cons.injEq] at hencode
    obtain ⟨rfl, -⟩ := hencode
    simp only [State.cycleEntry, htable, hentry, Option.getD_some]

end Sys2Proof.Machine
end

section
/-! PROOF. Effective addresses in numbers (40 R94 to R105, R110). -/

namespace Sys2Proof.Machine

/-- An indexed address wraps at 16 bits, and the page change is that of its high byte (40 R100, R101, R103). -/
theorem indexed_eq (base : Word) (index : Byte) :
    indexed base index = ⟨.mem (BitVec.ofNat 16 (base.toNat + index.toNat)),
      decide ((base.toNat + index.toNat) % 65536 / 256 ≠ base.toNat / 256)⟩ := by
  have hea : base + index.zeroExtend 16 = BitVec.ofNat 16 (base.toNat + index.toNat) := by bv_omega
  simp only [indexed, hea, bne, beq_eq_decide, ← BitVec.toNat_inj, toNat_highByte, BitVec.toNat_ofNat, decide_not]

theorem littleEndian_eq_ofNat (lo hi : Byte) : littleEndian lo hi = BitVec.ofNat 16 (lo.toNat + 256 * hi.toNat) := by
  rw [← toNat_littleEndian, BitVec.ofNat_toNat, BitVec.setWidth_eq]

/-- Indexing in page 0 drops the carry (40 R97, R98). -/
theorem zeroExtend_add_eq_ofNat (z index : Byte) :
    (z + index).zeroExtend 16 = BitVec.ofNat 16 ((z.toNat + index.toNat) % 256) := by
  bv_omega

/-- Both readings of `ZP_PTR_WRAP` in numbers (40 R110). -/
theorem toNat_zpHighAddr (wrap : Bool) (p : Byte) :
    (zpHighAddr wrap p).toNat = if wrap then (p.toNat + 1) % 256 else p.toNat + 1 := by
  cases wrap with
  | true => simp only [zpHighAddr, if_true]; bv_omega
  | false => simp only [zpHighAddr, Bool.false_eq_true, if_false]; bv_omega

/-- The high byte of an indirect `JMP` pointer stays in the page of the pointer (40 R104). -/
theorem toNat_indirectHighAddr (ptr : Word) :
    (indirectHighAddr ptr).toNat = ptr.toNat / 256 * 256 + (ptr.toNat % 256 + 1) % 256 := by
  rw [indirectHighAddr, toNat_littleEndian, toNat_highByte, BitVec.toNat_add, toNat_lowByte]
  simp
  omega

/-- A zero-page pointer read at the two addresses that 40 R110 gives in numbers. -/
theorem State.readZP16_eq {s : State} {p : Byte} {lo hi : Word} (hlo : lo.toNat = p.toNat)
    (hhi : hi.toNat = if s.cfg.zpPtrWrap then (lo.toNat + 1) % 256 else lo.toNat + 1) :
    s.readZP16 p =
      (littleEndian (s.busRead lo).1 ((s.busRead lo).2.busRead hi).1, ((s.busRead lo).2.busRead hi).2) := by
  obtain rfl : lo = p.zeroExtend 16 := by bv_omega
  obtain rfl : hi = zpHighAddr s.cfg.zpPtrWrap p :=
    BitVec.eq_of_toNat_eq (by rw [hhi, hlo, toNat_zpHighAddr])
  rfl

/-- Settles O10: the index additions in numbers; what an operand loads is `loadOperand` at its location. -/
theorem directAddressingModes : Obligations.DirectAddressingModes := by
  intro s z w
  have hrel : s.pc + z.signExtend 16 = BitVec.ofInt 16 (s.pc.toNat + z.toInt) := by
    rw [BitVec.ofInt_add, BitVec.ofInt_natCast, BitVec.ofNat_toNat, BitVec.setWidth_eq]
    rfl
  refine ⟨rfl, rfl, ?_, ?_, ?_, rfl, ?_, ?_, ?_, ⟨rfl, rfl⟩, ⟨rfl, rfl⟩, fun o ea hloc => ?_⟩
  · simp only [State.resolve, BitVec.ofNat_toNat]
  · simp only [State.resolve, zeroExtend_add_eq_ofNat]
  · simp only [State.resolve, zeroExtend_add_eq_ofNat]
  · simp only [State.resolve, indexed_eq]
  · simp only [State.resolve, indexed_eq]
  · simp only [State.resolve, hrel]
  · simp only [State.operandValue, State.afterLoad, hloc, State.loadOperand, and_self]

/-- Settles O11: each pointer's two addresses are the ones the hypotheses name. -/
theorem indirectAddressingModes : Obligations.IndirectAddressingModes := by
  intro s z w lo hi
  refine ⟨fun hlo hhi => ?_, fun hlo hhi base hbase => ?_, fun hlo hhi => ?_⟩
  · have hptr : lo.toNat = (z + s.x).toNat := by rw [hlo, BitVec.toNat_add]
    simp only [State.resolve, State.readZP16_eq hptr hhi, littleEndian_eq_ofNat]
  · simp only [State.resolve, State.readZP16_eq hlo hhi, indexed_eq, toNat_littleEndian, hbase]
  · subst hlo
    obtain rfl : hi = indirectHighAddr lo := BitVec.eq_of_toNat_eq (by rw [hhi, toNat_indirectHighAddr])
    simp only [State.resolve, State.readIndirect, littleEndian_eq_ofNat]

end Sys2Proof.Machine
end

section
/-! PROOF. The stack (40 R109). -/

namespace Sys2Proof.Machine

/-- The stack page is page 1 (10 R11). -/
theorem eq_stackAddr {a : Word} {sp : Byte} (h : a.toNat = 0x100 + sp.toNat) : a = stackAddr sp :=
  BitVec.eq_of_toNat_eq (by rw [stackAddr, toNat_littleEndian, h]; exact Nat.add_comm ..)

/-- On plain RAM a push is one RAM cell and the stack pointer. -/
theorem State.push_plain {s : State} (h : plainAddr s.cfg (stackAddr s.sp) = true) (v : Byte) :
    s.push v = { s with ram := Memory.write s.ram (stackAddr s.sp).toNat v, sp := s.sp - 1 } := by
  rw [State.push, State.busWrite_plain h]
  rfl

/-- A pull right after a push to plain RAM gives the pushed byte. -/
theorem State.pull_push_plain {s : State} (hm : Memory.wf s.ram = true)
    (h : plainAddr s.cfg (stackAddr s.sp) = true) (v : Byte) : (s.push v).pull.1 = v := by
  have hplain : plainAddr (s.push v).cfg (stackAddr s.sp) = true := by rwa [s.push_cfg v]
  rw [State.pull_fst, s.push_sp v, BitVec.sub_add_cancel, State.busRead_plain hplain, State.push_plain h]
  exact Memory.read_write_same hm v

/-- Settles O12: the address is the stack address of `S` or of `S + 1`, and a push followed by a pull moves `S` back. -/
theorem stackPushesAndPulls : Obligations.StackPushesAndPulls := by
  refine fun s v a => ⟨fun ha => ?_, fun ha => ?_⟩
  · obtain rfl := eq_stackAddr ha
    have hsp : s.sp - 1 = BitVec.ofNat 8 (s.sp.toNat + 255) := by bv_omega
    refine ⟨?_, fun hm hplain => ⟨State.pull_push_plain hm hplain v, ?_⟩⟩
    · rw [← hsp]
      rfl
    · rw [State.pull_sp, State.push_sp, BitVec.sub_add_cancel]
  · have hsp : s.sp + 1 = BitVec.ofNat 8 (s.sp.toNat + 1) := by bv_omega
    obtain rfl : a = stackAddr (s.sp + 1) := eq_stackAddr ha
    refine ⟨s.pull_fst, ?_⟩
    rw [s.pull_shape, s.pull_io, State.busRead_shape, hsp]

end Sys2Proof.Machine
end

section
/-! PROOF. What the bus distinguishes: the configuration, RAM, the timer and the record of the external devices; nothing
of the CPU (20 R41, R42). -/

namespace Sys2Proof.Machine

/-- No bus access tells the two states apart. -/
structure SameBus (s t : State) : Prop where
  cfg : t.cfg = s.cfg
  ram : t.ram = s.ram
  timer : t.timer = s.timer
  io : t.io = s.io

theorem SameBus.deviceWrite {s t : State} (h : SameBus s t) (k : Hook) (a : Word) (v : Byte) :
    SameBus (s.deviceWrite k a v) (t.deviceWrite k a v) := by
  unfold State.deviceWrite
  cases k.device with
  | timer => exact ⟨h.cfg, h.ram, by simp only [h.cfg, h.timer], h.io⟩
  | external id => exact ⟨h.cfg, h.ram, h.timer, by simp only [h.io]⟩

theorem SameBus.busWrite {s t : State} (h : SameBus s t) (a : Word) (v : Byte) :
    SameBus (s.busWrite a v) (t.busWrite a v) := by
  unfold State.busWrite
  rw [h.cfg]
  split
  · next k _ => exact h.deviceWrite k a v
  · split
    · exact h
    · exact ⟨rfl, by simp only [h.ram], h.timer, h.io⟩

theorem SameBus.busWrites {s t : State} (h : SameBus s t) (ws : List (Word × Byte)) :
    SameBus (s.busWrites ws) (t.busWrites ws) := by
  induction ws generalizing s t with
  | nil => exact h
  | cons w ws ih => exact ih (h.busWrite w.1 w.2)

theorem SameBus.busRead {s t : State} (h : SameBus s t) (a : Word) :
    (t.busRead a).1 = (s.busRead a).1 ∧ SameBus (s.busRead a).2 (t.busRead a).2 := by
  obtain ⟨hv, hio⟩ := State.busRead_congr h.cfg h.ram h.io a
  exact ⟨hv, by simpa using h.cfg, by simpa using h.ram, by simpa using h.timer, hio⟩

theorem SameBus.read16 {s t : State} (h : SameBus s t) (a : Word) :
    (t.read16 a).1 = (s.read16 a).1 ∧ SameBus (s.read16 a).2 (t.read16 a).2 := by
  obtain ⟨hlo, h⟩ := h.busRead a
  obtain ⟨hhi, h⟩ := h.busRead (a + 1)
  exact ⟨by simp only [State.read16, hlo, hhi], h⟩

end Sys2Proof.Machine
end

section
/-! PROOF. Taking a request (40 R90; 60 R235, R236), and the step without one (40 R91; 60 R250). -/

namespace Sys2Proof.Machine

/-! ### The entry -/

/-- A flag write keeps the other flags (10 R14). -/
theorem FlagsKept.of_putFlag {f : Flag} {b : Bool} {s t : State} (h : t.p = putFlag f b s.p) : FlagsKept [f] s t where
  kept g hg hu := by simp [State.flag_eq, h, hu, List.mem_singleton.not.mp hg]
  unused := by simp [State.flag_eq, h]

/-- The entry is the three stores, `I`, `S` and the jump through the vector read after them (60 R236, 45 R212). -/
theorem State.enterHandler_entered (s : State) (vector : Word) (status : Byte) :
    Entered vector status s (s.enterHandler vector status) := by
  have stored : SameBus (s.busWrites (frameStores s.sp s.pc status))
      (((s.pushWord s.pc).push status).setFlag .i true) := by
    rw [State.pushFrame_eq]
    exact ⟨rfl, rfl, rfl, rfl⟩
  obtain ⟨target, read⟩ := stored.read16 vector
  exact
    { regs := ⟨by simp, by simp, by simp, by simp⟩
      interrupt := by simp [State.flag_eq]
      flags := .of_putFlag (s.enterHandler_p vector status)
      stored := by apply Stored.of_eq rfl <;> simp [State.enterHandler, State.pushFrame_eq]
      pc := by simp only [State.enterHandler, State.setPC_pc, target]
      io := by simp only [State.enterHandler, State.setPC_io, read.io] }

/-- Neither the request latches before the entry nor the cycles counted after it are part of what it does. -/
theorem Entered.of_latches {vector : Word} {status : Byte} {s t : State} {nmi irq : Bool}
    (h : Entered vector status { s with pendingNMI := nmi, pendingIRQ := irq } t) (n : Nat) :
    Entered vector status s (t.addCycles n) := by
  have latches : SameBus s { s with pendingNMI := nmi, pendingIRQ := irq } := ⟨rfl, rfl, rfl, rfl⟩
  have stores := latches.busWrites (frameStores s.sp s.pc status)
  obtain ⟨target, read⟩ := stores.read16 vector
  obtain ⟨⟨ha, hx, hy, hsp⟩, hi, ⟨hkept, hu⟩, ⟨hram, htimer, helse⟩, hpc, hio⟩ := h
  exact
    { regs := ⟨ha, hx, hy, hsp⟩
      interrupt := hi
      flags := ⟨hkept, hu⟩
      stored := ⟨hram.trans stores.ram, htimer.trans stores.timer, helse⟩
      pc := hpc.trans target
      io := hio.trans read.io }

/-- The service of a request, whatever its latch is by then (60 R236). -/
theorem State.serviceInterrupt_entered (s : State) (nmi irq : Bool) (vector : Word) :
    Entered vector (s.p &&& 0xEF ||| 0x20) s
      (State.serviceInterrupt { s with pendingNMI := nmi, pendingIRQ := irq } vector) :=
  (State.enterHandler_entered _ vector _).of_latches 7

/-! ### Instructions -/

/-- No instruction touches the request latches, the configuration or the listed calls. -/
theorem exec_controlKept {i : Instr} {s t : State} (h : exec i s = .next t) : ControlKept s t := by
  unfold exec at h
  cases i with
  | lda o | ldx o | ldy o | adc o | sbc o | cmp o | cpx o | cpy o | and o | ora o | eor o | bit o =>
    obtain ⟨v, io, n, rfl⟩ := executeRead_inv_io h
    exact ⟨rfl, rfl, rfl, rfl, rfl⟩
  | sta o | stx o | sty o =>
    obtain ⟨io, n, rfl⟩ := executeOperand_inv_io h
    constructor <;> simp
  | inc o | dec o | asl o | lsr o | rol o | ror o =>
    obtain ⟨v, io, n, rfl⟩ := executeModify_inv_io h
    constructor <;> simp [State.shiftWith]
  | jmp o | jsr o =>
    obtain ⟨io, n, rfl⟩ := executeOperand_inv_io h
    rw [State.jumpTo_shape]
    constructor <;> simp
  | bcc o | bcs o | beq o | bmi o | bne o | bpl o | bvc o | bvs o =>
    obtain ⟨io, n, rfl⟩ := executeOperand_inv_io h
    rw [State.branchIf_shape]
    exact ⟨rfl, rfl, rfl, rfl, rfl⟩
  | tax | tay | txa | tya | tsx | txs | inx | iny | dex | dey | clc | sec | cli | sei | cld | sed | clv | nop
  | unofficialNop _ =>
    obtain ⟨n, rfl⟩ := executeImplied_inv_cycles h
    exact ⟨rfl, rfl, rfl, rfl, rfl⟩
  | pha | php | pla | plp | rts | rti | brk =>
    obtain ⟨n, rfl⟩ := executeImplied_inv_cycles h
    constructor <;> simp

/-- An instruction that some opcode encodes completes (60 R230). -/
theorem exec_next_of_opcodeOf {i : Instr} {op : Byte} (h : opcodeOf i = some op) (s : State) :
    ∃ t, exec i s = .next t := by
  obtain ⟨body, hb⟩ := exec_eq_execute i s
  exact ⟨_, hb.trans (execute_next h s body)⟩

/-! ### Steps -/

/-- A step of the running CPU: an NMI, else an IRQ that is taken, else an instruction (40 R90). -/
theorem State.cpuStep_of_running {s : State} (h : s.running = true) :
    s.cpuStep =
      if s.pendingNMI then .next ((s.setPendingNMI false).serviceInterrupt nmiVector)
      else if s.takesIRQ then .next ((s.setPendingIRQ false).serviceInterrupt irqVector)
      else s.executeNext := by
  simp [State.cpuStep, h]

/-- A latched IRQ is taken, unless the mask is tested again and `P.I` is 1 (90 C1, log 9). -/
theorem State.takesIRQ_iff (s : State) :
    s.takesIRQ = true ↔ s.pendingIRQ = true ∧ (s.cfg.irqRecheckMask = true → s.flag .i = false) := by
  simp [State.takesIRQ, imp_iff_not_or]

/-- The instruction executed is the one that the bytes at `PC` decode to, after their fetch (40 R91). -/
theorem State.executeNext_of_decode {s : State} {n : Nat} {i : Instr}
    (h : decode (s.fetchBytes n).1 = .instr i []) : s.executeNext = exec i (s.fetchBytes n).2 := by
  rw [State.executeNext, State.fetchInstr_of_decode h]

/-- A fetch and the execution of the instruction always complete and leave the request latches alone. -/
theorem State.executeNext_next (s : State) :
    ∃ t, s.executeNext = .next t ∧ t.pendingNMI = s.pendingNMI ∧ t.pendingIRQ = s.pendingIRQ := by
  obtain ⟨t, ht⟩ := exec_next_of_opcodeOf s.opcodeOf_fetchInstr s.fetchInstr.2
  have kept := exec_controlKept ht
  rw [s.fetchInstr_shape] at kept
  exact ⟨t, ht, kept.nmi, kept.irq⟩

/-- Fetches advance `PC` and the record of the external devices (40 R92). -/
theorem State.fetchBytes_shape (s : State) (n : Nat) :
    (s.fetchBytes n).2 = { s with pc := s.pc + BitVec.ofNat 16 n, io := (s.fetchBytes n).2.io } := by
  induction n generalizing s with
  | zero => simp [State.fetchBytes]
  | succ n ih =>
    simp only [State.fetchBytes]
    have hpc : s.pc + 1 + BitVec.ofNat 16 n = s.pc + BitVec.ofNat 16 (n + 1) := by bv_omega
    rw [ih, s.fetchByte_shape, ← hpc]

/-- Settles O45: the three branches of `cpuStep`; the third executes an instruction, which keeps the latches. -/
theorem pendingRequestsAreServicedNmiFirst : Obligations.PendingRequestsAreServicedNmiFirst := by
  intro s hrun
  rw [State.cpuStep_of_running hrun]
  refine ⟨fun hn => ?_, fun hn hq hmask => ?_, fun hn hq hrecheck hi => ?_⟩
  · rw [if_pos hn]
    exact ⟨_, rfl, s.serviceInterrupt_entered false s.pendingIRQ nmiVector,
      by simp [State.serviceInterrupt, hrun]⟩
  · rw [if_neg (by simp [hn]), if_pos (s.takesIRQ_iff.mpr ⟨hq, hmask⟩)]
    exact ⟨_, rfl, s.serviceInterrupt_entered s.pendingNMI false irqVector,
      by simp [State.serviceInterrupt, hn, hrun]⟩
  · rw [if_neg (by simp [hn]), if_neg (by simp [s.takesIRQ_iff, hrecheck, hi])]
    obtain ⟨t, ht, hn', hq'⟩ := s.executeNext_next
    exact ⟨t, ht, hn'.trans hn, hq'.trans hq, fun n i hdec => State.executeNext_of_decode hdec ▸ ht⟩

/-- Settles O53: with nothing pending and no call listed, the step is the system step around `executeNext`. -/
theorem stepRunsTheDecodedInstruction : Obligations.StepRunsTheDecodedInstruction := by
  intro s n i ⟨hc, hrun, hinputs, hn, hq⟩ hdec
  refine ⟨?_, s.fetchBytes_shape n⟩
  have hcpu : s.cpuStep = exec i (s.fetchBytes n).2 := by
    rw [State.cpuStep_of_running hrun, if_neg (by simp [hn]), if_neg (by simp [s.takesIRQ_iff, hq]),
      State.executeNext_of_decode hdec]
  simp only [step, hc, if_true, State.advance, hinputs, State.systemStep, hcpu]

end Sys2Proof.Machine
end

section
/-! PROOF. What a well-formed instruction answers, by the shape of its meaning, with the frame of that shape (40 R91,
R107): a read that writes registers, an implied instruction that does, and a store. -/

namespace Sys2Proof

/-- A well-formed instruction is in a mode its mnemonic has. -/
theorem Instr.mode_mem_of_wf {i : Instr} (h : i.wf = true) : i.mode ∈ i.mnemonic.modes :=
  List.contains_iff_mem.mp (Bool.and_eq_true_iff.mp h).1

end Sys2Proof

namespace Sys2Proof.Machine

/-! ### A read-type instruction -/

/-- Resolving and loading an operand advance the record of the external devices alone. -/
theorem State.afterLoad_shape (s : State) (o : Operand) : s.afterLoad o = { s with io := (s.afterLoad o).io } := by
  rw [State.afterLoad, State.loadOperand_shape, s.resolve_shape o]

/-- A read-type instruction whose operation, on the operand's value, leaves `a`, `x`, `y` and `p`. -/
theorem executeRead_registers {i : Instr} {o : Operand} (s : State) {f : Byte → State → State} {a x y p : Byte}
    (hwf : i.wf = true)
    (hf : ∀ io, f (s.operandValue o) { s with io := io } = { s with io := io, a := a, x := x, y := y, p := p }) :
    ∃ t, executeRead i o s f = .next t ∧ Regs t a x y s.sp ∧ t.p = p ∧ ReadFrame i o s t := by
  obtain ⟨op, ho⟩ := i.wf_iff_exists_opcodeOf.mp hwf
  have completes : executeRead i o s f = .next ((f (s.operandValue o) (s.afterLoad o)).addCycles _) :=
    executeRead_next ho o s f
  rw [s.afterLoad_shape o, hf] at completes
  exact ⟨_, completes, ⟨rfl, rfl, rfl, rfl⟩, rfl, .of_registers ho (by rw [s.afterLoad_shape o])⟩

/-- A read-type instruction that writes `N` and `Z` as those of `v` and no other flag (40 R108). -/
theorem executeRead_setNZ {i : Instr} {o : Operand} (s : State) {f : Byte → State → State} {a x y v : Byte}
    (hwf : i.wf = true)
    (hf : ∀ io, f (s.operandValue o) { s with io := io } =
      { s with io := io, a := a, x := x, y := y, p := putNZ v s.p }) :
    ∃ t, executeRead i o s f = .next t ∧ Regs t a x y s.sp ∧ NZOf v t ∧ FlagsKept [.n, .z] s t ∧
      ReadFrame i o s t :=
  have ⟨t, ht, regs, status, frame⟩ := executeRead_registers s hwf hf
  ⟨t, ht, regs, .of_putNZ status, .of_putNZ status, frame⟩

/-! ### An instruction in implied mode -/

/-- An instruction in implied mode whose operation leaves `a`, `x`, `y`, `sp` and `p`. -/
theorem executeImplied_registers {i : Instr} (s : State) {f : State → State} {a x y sp p : Byte}
    (hwf : i.wf = true) (hf : f s = { s with a := a, x := x, y := y, sp := sp, p := p }) :
    ∃ t, executeImplied i s f = .next t ∧ Regs t a x y sp ∧ t.p = p ∧ ImpliedFrame i s t := by
  obtain ⟨op, ho⟩ := i.wf_iff_exists_opcodeOf.mp hwf
  refine ⟨_, executeImplied_next ho s f, ?_⟩
  rw [hf]
  exact ⟨⟨rfl, rfl, rfl, rfl⟩, rfl,
    { pc := rfl
      cycles := by simp [State.cost, ho]
      memory := .of_eq rfl rfl
      io := rfl
      control := ⟨rfl, rfl, rfl, rfl, rfl⟩ }⟩

/-- An instruction in implied mode that writes `N` and `Z` as those of `v` and no other flag (40 R108). -/
theorem executeImplied_setNZ {i : Instr} (s : State) {f : State → State} {a x y sp v : Byte} (hwf : i.wf = true)
    (hf : f s = { s with a := a, x := x, y := y, sp := sp, p := putNZ v s.p }) :
    ∃ t, executeImplied i s f = .next t ∧ Regs t a x y sp ∧ NZOf v t ∧ FlagsKept [.n, .z] s t ∧
      ImpliedFrame i s t :=
  have ⟨t, ht, regs, status, frame⟩ := executeImplied_registers s hwf hf
  ⟨t, ht, regs, .of_putNZ status, .of_putNZ status, frame⟩

/-! ### A store -/

/-- A store to memory writes its byte once at the resolved address, which it does not load (40 R107). -/
theorem executeStore_frame {i : Instr} {o : Operand} {s : State} {r : State → Byte} {ea : Word} {v : Byte}
    (hwf : i.wf = true) (hloc : (s.resolve o).1.loc = .mem ea) (hr : r (s.resolve o).2 = v) :
    ∃ t, executeOperand i o s (fun l u => u.storeOperand (r u) l) = .next t ∧ StoreFrame i o ea v s t := by
  obtain ⟨op, ho⟩ := i.wf_iff_exists_opcodeOf.mp hwf
  refine ⟨_, executeOperand_next ho o s _, ?_⟩
  rw [hloc, hr]
  change StoreFrame i o ea v s (((s.resolve o).2.busWrite ea v).addCycles _)
  exact
    { regs := by constructor <;> simp
      status := by simp
      pc := by simp
      cycles := by simp [State.cost, ho]
      stored := .of_eq (s.resolve_ram o) rfl rfl
      io := rfl
      control := by constructor <;> simp }

/-- An operand that is neither `A` nor a byte in the instruction resolves to an address (40 R96 to R105). -/
theorem State.exists_resolve_loc_eq_mem (s : State) {o : Operand} (h : o.mode ∉ [.acc, .imm]) :
    ∃ ea, (s.resolve o).1.loc = .mem ea := by
  cases o with
  | acc | imm _ => exact absurd (by simp [Operand.mode]) h
  | _ => exact ⟨_, rfl⟩

end Sys2Proof.Machine
end

section
/-! PROOF. Loads, stores and transfers (41 R120 to R131). -/

namespace Sys2Proof.Machine

/-- Settles O15: each load leaves the byte in its register and the status `setNZ` of the byte. -/
theorem loadsWriteTheRegisterAndNZ : Obligations.LoadsWriteTheRegisterAndNZ := by
  intro s o
  unfold exec
  exact ⟨fun hwf => executeRead_setNZ s hwf fun _ => rfl, fun hwf => executeRead_setNZ s hwf fun _ => rfl,
    fun hwf => executeRead_setNZ s hwf fun _ => rfl⟩

/-- Settles O16: no store has an accumulator or an immediate form, and the resolver keeps the register stored. -/
theorem storesWriteOneByte : Obligations.StoresWriteOneByte := by
  intro s o
  have inMemory : ∀ m ∈ [Mnemonic.sta, .stx, .sty], ∀ d ∈ m.modes, d ∉ [Mode.acc, .imm] := by decide
  refine ⟨fun hwf => s.exists_resolve_loc_eq_mem ?_, fun ea hloc => ⟨fun hwf => ?_, fun hwf => ?_, fun hwf => ?_⟩⟩
  · obtain hwf | hwf | hwf := hwf <;> exact inMemory _ (by simp [Instr.mnemonic]) _ (Instr.mode_mem_of_wf hwf)
  · exact executeStore_frame hwf hloc (s.resolve_a o)
  · exact executeStore_frame hwf hloc (s.resolve_x o)
  · exact executeStore_frame hwf hloc (s.resolve_y o)

/-- Settles O17: each transfer leaves the source in its destination, and all but `TXS` the status `setNZ` of it. -/
theorem transfersCopyARegister : Obligations.TransfersCopyARegister := by
  intro s
  unfold SetsRegister exec
  exact ⟨executeImplied_setNZ s rfl rfl, executeImplied_setNZ s rfl rfl, executeImplied_setNZ s rfl rfl,
    executeImplied_setNZ s rfl rfl, executeImplied_setNZ s rfl rfl, executeImplied_registers s rfl rfl⟩

end Sys2Proof.Machine
end

section
/-! PROOF. The two adders in numbers (42 R140, R141), and the subtraction made of the binary one (42 R143). -/

namespace Sys2Proof.Machine

/-! ### The binary adder -/

/-- Bit 7 of a byte, tested by the mask 0x80. -/
theorem and_0x80_bne_zero (w : Byte) : (w &&& 0x80 != 0) = w.msb := by
  revert w; decide

theorem toNat_addBinary_result (a v : Byte) (c : Bool) :
    (addBinary a v c).result.toNat = (a.toNat + v.toNat + c.toNat) % 256 :=
  BitVec.toNat_ofNat _ 8

theorem addBinary_carry (a v : Byte) (c : Bool) :
    (addBinary a v c).carry = decide (255 < a.toNat + v.toNat + c.toNat) :=
  rfl

/-- The overflow is set when both operands have one sign and the result has the other. -/
theorem addBinary_overflow_eq_msb (a v : Byte) (c : Bool) :
    (addBinary a v c).overflow = (a.msb == v.msb && a.msb != (addBinary a v c).result.msb) := by
  have h : (addBinary a v c).overflow = (~~~(a ^^^ v) &&& (a ^^^ (addBinary a v c).result)).msb :=
    and_0x80_bne_zero _
  rw [h, BitVec.msb_and, BitVec.msb_not, BitVec.msb_xor, BitVec.msb_xor]
  cases a.msb <;> cases v.msb <;> simp

/-- That is signed overflow (42 R140). -/
theorem addBinary_overflow (a v : Byte) (c : Bool) :
    (addBinary a v c).overflow =
      decide (a.toInt + v.toInt + c.toNat < -128 ∨ 127 < a.toInt + v.toInt + c.toNat) := by
  have hc := c.toNat_le
  have ha := a.isLt
  have hv := v.isLt
  rw [addBinary_overflow_eq_msb, Bool.eq_iff_iff]
  simp only [BitVec.msb_eq_decide, BitVec.toInt_eq_toNat_cond, toNat_addBinary_result, Bool.and_eq_true, beq_iff_eq,
    bne_iff_ne, ne_eq, decide_eq_decide, decide_eq_true_eq]
  split <;> split <;> omega

/-- Settles O18: the sum and the carry by definition, the overflow by the signs. -/
theorem binaryAdderIsExact : Obligations.BinaryAdderIsExact :=
  fun a v c => ⟨toNat_addBinary_result a v c, addBinary_carry a v c, addBinary_overflow a v c⟩

/-! ### The binary difference: the complement is `255 - v` unsigned and `-1 - v` signed -/

theorem toNat_addBinary_not_result (a v : Byte) (c : Bool) :
    (addBinary a (~~~v) c).result.toNat = (a.toNat + 256 - v.toNat - (1 - c.toNat)) % 256 := by
  have hc := c.toNat_le
  have hv := v.isLt
  rw [toNat_addBinary_result, BitVec.toNat_not]
  omega

theorem addBinary_not_carry (a v : Byte) (c : Bool) :
    (addBinary a (~~~v) c).carry = decide (v.toNat + (1 - c.toNat) ≤ a.toNat) := by
  have hc := c.toNat_le
  have hv := v.isLt
  rw [addBinary_carry, BitVec.toNat_not, decide_eq_decide]
  omega

theorem addBinary_not_overflow (a v : Byte) (c : Bool) :
    (addBinary a (~~~v) c).overflow = decide (a.toInt - v.toInt - (1 - c.toNat : Nat) < -128 ∨
      127 < a.toInt - v.toInt - (1 - c.toNat : Nat)) := by
  have hc := c.toNat_le
  have hnot : (~~~v).toInt = -1 - v.toInt := by
    have hv := v.isLt
    simp only [BitVec.toInt_eq_toNat_cond, BitVec.toNat_not]
    split <;> split <;> omega
  rw [addBinary_overflow, hnot, decide_eq_decide]
  omega

/-! ### The decimal adder -/

theorem isBCD_iff (b : Byte) : isBCD b = true ↔ b.toNat % 16 ≤ 9 ∧ b.toNat / 16 ≤ 9 := by
  simp [isBCD]

/-- On BCD operands the two adjusted digit sums are the two low digits of the decimal sum. -/
theorem toNat_addDecimal_result {a v : Byte} (ha : isBCD a = true) (hv : isBCD v = true) (c : Bool) :
    (addDecimal a v c).result.toNat =
      (bcdValue a + bcdValue v + c.toNat) / 10 % 10 * 16 + (bcdValue a + bcdValue v + c.toNat) % 10 := by
  rw [isBCD_iff] at ha hv
  have hc := c.toNat_le
  simp only [addDecimal, bcdValue, BitVec.toNat_ofNat]
  split <;> split <;> split <;> omega

/-- On BCD operands the carry out of the second digit says that the decimal sum has a third one. -/
theorem addDecimal_carry {a v : Byte} (ha : isBCD a = true) (hv : isBCD v = true) (c : Bool) :
    (addDecimal a v c).carry = decide (100 ≤ bcdValue a + bcdValue v + c.toNat) := by
  rw [isBCD_iff] at ha hv
  have hc := c.toNat_le
  rw [addDecimal, decide_eq_decide, bcdValue, bcdValue]
  split <;> split <;> omega

/-- Settles O19: both digits of the result are the decimal sum's. -/
theorem decimalAdderIsDecimalOnBCD : Obligations.DecimalAdderIsDecimalOnBCD := by
  refine fun a v c => ⟨rfl, fun ha hv => ⟨?_, ?_, addDecimal_carry ha hv c⟩⟩
  · rw [isBCD_iff, toNat_addDecimal_result ha hv]
    omega
  · rw [bcdValue, toNat_addDecimal_result ha hv]
    omega

end Sys2Proof.Machine
end

section
/-! PROOF. What a well-formed read-modify-write of memory answers (40 R107). -/

namespace Sys2Proof.Machine

/-- A read-modify-write of memory whose operation, on the operand's value, stores `v` and leaves the status `p`. -/
theorem executeModify_status {i : Instr} {o : Operand} {s : State} {f : Byte → State → Byte × State} {ea : Word}
    {v p : Byte} (hwf : i.wf = true) (hloc : (s.resolve o).1.loc = .mem ea)
    (hf : ∀ io, f (s.operandValue o) { s with io := io } = (v, { s with io := io, p := p })) :
    ∃ t, executeModify i o s f = .next t ∧ t.p = p ∧ ModifyFrame i o ea v s t := by
  obtain ⟨op, ho⟩ := i.wf_iff_exists_opcodeOf.mp hwf
  have completes : executeModify i o s f =
      .next (((f (s.operandValue o) (s.afterLoad o)).2.storeOperand (f (s.operandValue o) (s.afterLoad o)).1
        (s.resolve o).1.loc).addCycles _) :=
    executeModify_next ho o s f
  rw [hloc, s.afterLoad_shape o, hf] at completes
  exact ⟨_, completes, by simp, .of_status ho (by rw [s.afterLoad_shape o])⟩

/-- A read-modify-write of memory that writes `N` and `Z` as those of the byte stored and no other flag (40 R108). -/
theorem executeModify_setNZ {i : Instr} {o : Operand} {s : State} {f : Byte → State → Byte × State} {ea : Word}
    {v : Byte} (hwf : i.wf = true) (hloc : (s.resolve o).1.loc = .mem ea)
    (hf : ∀ io, f (s.operandValue o) { s with io := io } = (v, { s with io := io, p := putNZ v s.p })) :
    ∃ t, executeModify i o s f = .next t ∧ NZOf v t ∧ FlagsKept [.n, .z] s t ∧ ModifyFrame i o ea v s t :=
  have ⟨t, ht, status, frame⟩ := executeModify_status hwf hloc hf
  ⟨t, ht, .of_putNZ status, .of_putNZ status, frame⟩

end Sys2Proof.Machine
end

section
/-! PROOF. Addition, subtraction, compares, increments and decrements (42 R142 to R153). -/

namespace Sys2Proof.Machine

/-- A status write that sets bit 5 keeps the flags it does not write (10 R14). -/
theorem StatusWrite.flagsKept {ws written : List Flag} {s t : State} (h : StatusWrite ws s.p t.p)
    (hws : ∀ f ∈ ws, f ≠ .u → f ∈ written) (hu : getFlag .u t.p = true) : FlagsKept written s t where
  kept f hf hfu := h.kept f fun hm => hf (hws f hm hfu)
  unused := hu

/-! ### `ADC` and `SBC` -/

/-- The flags of a sum are `C`, `V`, `N` and `Z`, and no other (42 R142). -/
theorem FlagsKept.of_putSum {r : Sum} {s t : State} (h : t.p = putSum r s.p) : FlagsKept [.c, .v, .n, .z] s t :=
  (h ▸ putSum_statusWrite r s.p).flagsKept (by decide) (by simp [h])

/-- `A`, `C` and `V` are those of the sum `r` (42 R142). -/
structure SumOf (r : Sum) (t : State) : Prop where
  a : t.a = r.result
  c : t.flag .c = r.carry
  v : t.flag .v = r.overflow

/-- A read-type instruction that accumulates the sum `r` (42 R142). -/
theorem exec_accumulate {i : Instr} {o : Operand} {s : State} {f : Byte → State → State} (r : Sum)
    (hwf : i.wf = true) (hexec : exec i s = executeRead i o s f)
    (hf : ∀ io, f (s.operandValue o) { s with io := io } = State.accumulate { s with io := io } r) :
    ∃ t, exec i s = .next t ∧ Regs t t.a s.x s.y s.sp ∧ NZOf t.a t ∧ FlagsKept [.c, .v, .n, .z] s t ∧
      ReadFrame i o s t ∧ SumOf r t := by
  obtain ⟨t, ht, ⟨ha, hx, hy, hsp⟩, status, frame⟩ :=
    executeRead_registers (a := r.result) (x := s.x) (y := s.y) (p := putSum r s.p) s hwf hf
  exact ⟨t, hexec.trans ht, ⟨rfl, hx, hy, hsp⟩, ha ▸ .of_putNZ status, .of_putSum status, frame,
    { a := ha
      c := by simp [State.flag_eq, status]
      v := by simp [State.flag_eq, status] }⟩

/-- Settles O20: the sum is the exact one of the binary adder, or the decimal adder's. -/
theorem adcAddsWithCarry : Obligations.AdcAddsWithCarry := by
  intro s o hwf
  obtain ⟨t, ht, regs, nz, flags, frame, sum⟩ :=
    exec_accumulate (addWithMode (s.flag .d) s.a (s.operandValue o) (s.flag .c)) hwf (.refl (execAdc o s))
      fun _ => rfl
  refine ⟨t, ht, regs, nz, flags, frame, ?_⟩
  rintro v c rfl rfl
  refine ⟨fun binary => ?_, fun decimal => ?_⟩
  · rw [binary] at sum
    rw [sum.a, sum.c, sum.v]
    exact binaryAdderIsExact s.a (s.operandValue o) (s.flag .c)
  · rw [decimal] at sum
    exact ⟨sum.a, sum.c, sum.v⟩

/-- Settles O21: the sum with the complement is the difference in binary, and the decimal adder's otherwise. -/
theorem sbcSubtractsWithBorrow : Obligations.SbcSubtractsWithBorrow := by
  intro s o hwf
  obtain ⟨t, ht, regs, nz, flags, frame, sum⟩ :=
    exec_accumulate (addWithMode (s.flag .d) s.a (~~~s.operandValue o) (s.flag .c)) hwf (.refl (execSbc o s))
      fun _ => rfl
  refine ⟨t, ht, regs, nz, flags, frame, ?_⟩
  rintro v borrow rfl rfl
  refine ⟨fun binary => ?_, fun decimal => ?_⟩
  · rw [binary] at sum
    rw [sum.a, sum.c, sum.v]
    exact ⟨toNat_addBinary_not_result .., addBinary_not_carry .., addBinary_not_overflow ..⟩
  · have complement : s.operandValue o ^^^ 0xFF = ~~~s.operandValue o := BitVec.xor_allOnes
    rw [decimal] at sum
    rw [complement]
    exact ⟨sum.a, sum.c, sum.v⟩

/-! ### `CMP`, `CPX` and `CPY` -/

/-- The flags of a compare are `C`, `Z` and `N`, and no other (42 R144). -/
theorem FlagsKept.of_putCompare {reg v : Byte} {s t : State} (h : t.p = putCompare reg v s.p) :
    FlagsKept [.c, .z, .n] s t :=
  (h ▸ putCompare_statusWrite reg v s.p).flagsKept (by decide) (by simp [h])

/-- A read-type instruction that writes the status of a compare of `reg` with its operand (42 R144). -/
theorem comparesAs_of_putCompare {i : Instr} {o : Operand} {s : State} {f : Byte → State → State} {reg : Byte}
    (hexec : exec i s = executeRead i o s f)
    (hf : ∀ v io, f v { s with io := io } = { s with io := io, p := putCompare reg v s.p }) :
    ComparesAs i o reg s := by
  intro hwf
  obtain ⟨t, ht, regs, status, frame⟩ := executeRead_registers s hwf (hf _)
  have difference : (reg - s.operandValue o).toNat = (reg.toNat + 256 - (s.operandValue o).toNat) % 256 := by
    bv_omega
  have equality : (reg - s.operandValue o == 0) = decide (reg.toNat = (s.operandValue o).toNat) := by
    rw [beq_eq_decide, decide_eq_decide]
    bv_omega
  refine ⟨t, hexec.trans ht, regs, ?_, ?_, ?_, .of_putCompare status, frame⟩
  · simp [State.flag_eq, status]
  · simpa [State.flag_eq, status] using equality
  · simp [State.flag_eq, status, BitVec.msb_eq_decide, difference]

/-- Settles O22: each compare writes the status of `Compare` on its register. -/
theorem comparesSetCarryZeroNegative : Obligations.ComparesSetCarryZeroNegative := by
  intro s o
  refine ⟨?_, ?_, ?_⟩
  · exact comparesAs_of_putCompare (.refl (execCmp o s)) fun _ _ => rfl
  · exact comparesAs_of_putCompare (.refl (execCpx o s)) fun _ _ => rfl
  · exact comparesAs_of_putCompare (.refl (execCpy o s)) fun _ _ => rfl

/-! ### Increments and decrements -/

/-- Counting up is addition modulo 256 (42 R148). -/
theorem add_one_eq_ofNat (v : Byte) : v + 1 = BitVec.ofNat 8 (v.toNat + 1) := by
  bv_omega

/-- Counting down is addition of 255 modulo 256 (42 R149). -/
theorem sub_one_eq_ofNat (v : Byte) : v - 1 = BitVec.ofNat 8 (v.toNat + 255) := by
  bv_omega

/-- Settles O23: no form is in `A` or immediate, and the byte stored is the one `N` and `Z` are set from. -/
theorem incDecModifyOneByte : Obligations.IncDecModifyOneByte := by
  intro s o
  have inMemory : ∀ m ∈ [Mnemonic.inc, .dec], ∀ d ∈ m.modes, d ∉ [Mode.acc, .imm] := by decide
  refine ⟨fun hwf => s.exists_resolve_loc_eq_mem ?_, ?_⟩
  · obtain hwf | hwf := hwf <;> exact inMemory _ (by simp [Instr.mnemonic]) _ (Instr.mode_mem_of_wf hwf)
  · rintro ea v hloc rfl
    rw [← add_one_eq_ofNat, ← sub_one_eq_ofNat]
    unfold exec
    exact ⟨fun hwf => executeModify_setNZ hwf hloc fun _ => rfl,
      fun hwf => executeModify_setNZ hwf hloc fun _ => rfl⟩

/-- Settles O24: each count leaves its register and the status `setNZ` of it. -/
theorem indexRegistersCount : Obligations.IndexRegistersCount := by
  intro s
  simp only [← add_one_eq_ofNat, ← sub_one_eq_ofNat]
  unfold SetsRegister exec
  exact ⟨executeImplied_setNZ s rfl rfl, executeImplied_setNZ s rfl rfl, executeImplied_setNZ s rfl rfl,
    executeImplied_setNZ s rfl rfl⟩

end Sys2Proof.Machine
end

section
/-! PROOF. Logical operations and the bit test (43 R160 to R163). -/

namespace Sys2Proof.Machine

/-- A read-type instruction that writes to `A` the byte `r`, which is `bitwise` of `A` and the operand bit by bit, and
sets `N` and `Z` from it. -/
theorem executeRead_bitwise {i : Instr} {o : Operand} {s : State} {f : Byte → State → State} {r : Byte}
    {bitwise : Bool → Bool → Bool} (hwf : i.wf = true)
    (hf : ∀ io, f (s.operandValue o) { s with io := io } = { s with io := io, a := r, p := putNZ r s.p })
    (hr : ∀ k, r.getLsbD k = bitwise (s.a.getLsbD k) ((s.operandValue o).getLsbD k)) :
    ∃ t, executeRead i o s f = .next t ∧ Regs t t.a s.x s.y s.sp ∧
      (∀ k, t.a.getLsbD k = bitwise (s.a.getLsbD k) ((s.operandValue o).getLsbD k)) ∧
      NZOf t.a t ∧ FlagsKept [.n, .z] s t ∧ ReadFrame i o s t := by
  obtain ⟨t, ht, ⟨ha, hx, hy, hsp⟩, nz, flags, frame⟩ := executeRead_setNZ s hwf hf
  exact ⟨t, ht, ⟨rfl, hx, hy, hsp⟩, ha ▸ hr, ha ▸ nz, flags, frame⟩

/-- Settles O25: `&&&`, `|||` and `^^^` on bytes are the Boolean operations bit by bit. -/
theorem logicalOperationsAreBitwise : Obligations.LogicalOperationsAreBitwise := by
  intro s o
  unfold exec
  refine ⟨fun hwf => ?_, fun hwf => ?_, fun hwf => ?_⟩
  · exact executeRead_bitwise (bitwise := and) hwf (fun _ => rfl) fun _ => BitVec.getLsbD_and
  · exact executeRead_bitwise (bitwise := or) hwf (fun _ => rfl) fun _ => BitVec.getLsbD_or
  · exact executeRead_bitwise (bitwise := xor) hwf (fun _ => rfl) fun _ => BitVec.getLsbD_xor

/-- Two bytes have no common bit exactly when their conjunction is 0. -/
theorem and_eq_zero_iff_getLsbD (a v : Byte) :
    a &&& v = 0 ↔ ∀ k, (a.getLsbD k && v.getLsbD k) = false := by
  constructor
  · intro h k
    rw [← BitVec.getLsbD_and, h]
    exact BitVec.getLsbD_zero
  · intro h
    refine BitVec.eq_of_getLsbD_eq fun k _ => ?_
    rw [BitVec.getLsbD_and, h k]
    exact BitVec.getLsbD_zero.symm

theorem getLsbD_six_eq_decide (v : Byte) : v.getLsbD 6 = decide (64 ≤ v.toNat % 128) := by
  have : v.getLsbD 6 = decide (v.toNat / 64 % 2 = 1) := getFlag_eq_decide .v v
  rw [this, decide_eq_decide]
  omega

theorem getLsbD_seven_eq_decide (v : Byte) : v.getLsbD 7 = decide (128 ≤ v.toNat) :=
  v.msb_eq_decide

/-- The flags of the bit test are `Z`, `N` and `V`, and no other (43 R163). -/
theorem FlagsKept.of_putBit {a v : Byte} {s t : State} (h : t.p = putBit a v s.p) : FlagsKept [.z, .n, .v] s t :=
  (h ▸ putBit_statusWrite a v s.p).flagsKept (by decide) (by simp [h])

/-- Settles O26: the status is that of `putBit`, and no register is written. -/
theorem bitTestsMemory : Obligations.BitTestsMemory := by
  intro s o hwf
  obtain ⟨t, ht, regs, status, frame⟩ : ∃ t, execBit o s = .next t ∧ Regs t s.a s.x s.y s.sp ∧
      t.p = putBit s.a (s.operandValue o) s.p ∧ ReadFrame (.bit o) o s t :=
    executeRead_registers s hwf fun _ => rfl
  refine ⟨t, ht, regs, ?_, ?_, ?_, .of_putBit status, frame⟩
  · simp only [← and_eq_zero_iff_getLsbD]
    simp [State.flag_eq, status]
  · rw [← getLsbD_seven_eq_decide]
    simp [State.flag_eq, status]
  · rw [← getLsbD_six_eq_decide]
    simp [State.flag_eq, status]

end Sys2Proof.Machine
end

section
/-! PROOF. The four shifts as functions on bytes, in numbers (43 R165 to R168). -/

namespace Sys2Proof.Machine

theorem getLsbD_zero_eq_decide (v : Byte) : v.getLsbD 0 = decide (v.toNat % 2 = 1) :=
  Nat.testBit_zero v.toNat

theorem shiftLeft_one_eq_ofNat (v : Byte) : v <<< 1 = BitVec.ofNat 8 (v.toNat * 2) := by
  bv_omega

theorem ushiftRight_one_eq_ofNat (v : Byte) : v >>> 1 = BitVec.ofNat 8 (v.toNat / 2) := by
  bv_omega

/-- A carry that enters at a vacated bit `m` of `u` is added (43 R167, R168). -/
theorem or_carry_eq_ofNat {u m : Byte} (vacated : u &&& m = 0) (c : Bool) :
    (u ||| if c then m else 0) = BitVec.ofNat 8 (u.toNat + m.toNat * c.toNat) := by
  cases c with
  | false => simp
  | true =>
    rw [if_pos rfl, ← BitVec.add_eq_or_of_and_eq_zero _ _ vacated, Bool.toNat_true, Nat.mul_one, BitVec.ofNat_add,
      BitVec.ofNat_toNat, BitVec.ofNat_toNat, BitVec.setWidth_eq, BitVec.setWidth_eq]

theorem shiftASL_eq (v : Byte) (c : Bool) :
    shiftASL v c = ⟨BitVec.ofNat 8 (v.toNat * 2), decide (128 ≤ v.toNat)⟩ := by
  rw [shiftASL, shiftLeft_one_eq_ofNat, getLsbD_seven_eq_decide]

theorem shiftLSR_eq (v : Byte) (c : Bool) :
    shiftLSR v c = ⟨BitVec.ofNat 8 (v.toNat / 2), decide (v.toNat % 2 = 1)⟩ := by
  rw [shiftLSR, ushiftRight_one_eq_ofNat, getLsbD_zero_eq_decide]

theorem shiftROL_eq (v : Byte) (c : Bool) :
    shiftROL v c = ⟨BitVec.ofNat 8 (v.toNat * 2 + c.toNat), decide (128 ≤ v.toNat)⟩ := by
  have vacated : v <<< 1 &&& 0x01 = 0 := by
    revert v; decide
  rw [shiftROL, or_carry_eq_ofNat vacated, shiftLeft_one_eq_ofNat, getLsbD_seven_eq_decide]
  congr 1
  bv_omega

theorem shiftROR_eq (v : Byte) (c : Bool) :
    shiftROR v c = ⟨BitVec.ofNat 8 (v.toNat / 2 + 128 * c.toNat), decide (v.toNat % 2 = 1)⟩ := by
  have vacated : v >>> 1 &&& 0x80 = 0 := by
    revert v; decide
  rw [shiftROR, or_carry_eq_ofNat vacated, ushiftRight_one_eq_ofNat, getLsbD_zero_eq_decide]
  congr 1
  bv_omega

end Sys2Proof.Machine
end

section
/-! PROOF. Shifts and rotates (43 R164 to R168). -/

namespace Sys2Proof.Machine

/-- The flags of a shift are `C`, `N` and `Z`, and no other (43 R164). -/
theorem FlagsKept.of_putShift {r : Shifted} {s t : State} (h : t.p = putShift r s.p) : FlagsKept [.c, .n, .z] s t :=
  (h ▸ putShift_statusWrite r s.p).flagsKept (by decide) (by simp [h])

/-- `C` after a shift is the bit shifted out (43 R164). -/
theorem State.flag_c_of_putShift {r : Shifted} {s t : State} (h : t.p = putShift r s.p) : t.flag .c = r.carry := by
  simp [State.flag_eq, h]

/-- The read-modify-write by the shift `f` of the operand and the old `C`. -/
def executeShift (i : Instr) (o : Operand) (f : Byte → Bool → Shifted) (s : State) : Host.Outcome State Fault Refusal :=
  executeModify i o s fun v u => u.shiftWith (f v (u.flag .c))

/-- In the accumulator form a shift is an operation on `A` and `P` alone. -/
theorem executeShift_acc {i : Instr} (f : Byte → Bool → Shifted) (s : State) (hwf : i.wf = true) :
    ∃ t, executeShift i .acc f s = .next t ∧ Regs t (f s.a (s.flag .c)).result s.x s.y s.sp ∧
      t.p = putShift (f s.a (s.flag .c)) s.p ∧ ImpliedFrame i s t :=
  executeImplied_registers (f := fun u => (u.setP (putShift (f u.a (u.flag .c)) u.p)).setA (f u.a (u.flag .c)).result)
    s hwf rfl

/-- In a memory form a shift writes back the shifted operand and the status of the shift. -/
theorem executeShift_mem {i : Instr} {o : Operand} {ea : Word} (f : Byte → Bool → Shifted) (s : State)
    (hwf : i.wf = true) (hloc : (s.resolve o).1.loc = .mem ea) :
    ∃ t, executeShift i o f s = .next t ∧ t.p = putShift (f (s.operandValue o) (s.flag .c)) s.p ∧
      ModifyFrame i o ea (f (s.operandValue o) (s.flag .c)).result s t :=
  executeModify_status hwf hloc fun _ => rfl

/-- A shift in numbers, from its function on bytes in numbers. -/
theorem shiftsAs_of_executeShift {shift : Operand → Instr} {f : Byte → Bool → Shifted} {result : Nat → Nat → Nat}
    {carry : Nat → Bool} (s : State) (hwf : (shift .acc).wf = true)
    (hexec : ∀ o, exec (shift o) s = executeShift (shift o) o f s)
    (hf : ∀ v c, f v c = ⟨BitVec.ofNat 8 (result v.toNat c.toNat), carry v.toNat⟩) : ShiftsAs shift result carry s := by
  refine ⟨?_, fun o ea hwf hloc => ?_⟩
  · obtain ⟨t, ht, regs, status, frame⟩ := executeShift_acc f s hwf
    rw [hf] at regs status
    exact ⟨t, (hexec .acc).trans ht, regs, State.flag_c_of_putShift status, regs.a ▸ .of_putNZ status,
      .of_putShift status, frame⟩
  · obtain ⟨t, ht, status, frame⟩ := executeShift_mem f s hwf hloc
    rw [hf] at status frame
    exact ⟨t, (hexec o).trans ht, State.flag_c_of_putShift status, .of_putNZ status, .of_putShift status, frame⟩

/-- Settles O27: no form is immediate, and each shift is its function on bytes, in the accumulator and in memory. -/
theorem shiftsMoveOneBit : Obligations.ShiftsMoveOneBit := by
  intro s
  have accOrMemory : ∀ m ∈ [Mnemonic.asl, .lsr, .rol, .ror], ∀ d ∈ m.modes, d = .acc ∨ d ∉ [Mode.acc, .imm] := by
    decide
  refine ⟨fun o hacc hwf => s.exists_resolve_loc_eq_mem ?_, ?_, ?_, ?_, ?_⟩
  · refine Or.resolve_left ?_ (hacc ∘ Operand.eq_acc_of_mode)
    obtain hwf | hwf | hwf | hwf := hwf <;> exact accOrMemory _ (by simp [Instr.mnemonic]) _ (Instr.mode_mem_of_wf hwf)
  · exact shiftsAs_of_executeShift s rfl (fun _ => rfl) shiftASL_eq
  · exact shiftsAs_of_executeShift s rfl (fun _ => rfl) shiftLSR_eq
  · exact shiftsAs_of_executeShift s rfl (fun _ => rfl) shiftROL_eq
  · exact shiftsAs_of_executeShift s rfl (fun _ => rfl) shiftROR_eq

end Sys2Proof.Machine
end

section
/-! PROOF. Nine rotates of the accumulator (43 R167, R168): the carry and the byte are a word of nine bits, and `ROL` and
`ROR` rotate it by one position. -/

namespace Sys2Proof.Machine

/-! ### Rotation by one position, repeated -/

/-- Bit `i` of a word rotated right by one is the bit above it, the lowest for the top bit. -/
theorem getLsbD_rotateRight_one {w : Nat} (x : BitVec w) {i : Nat} (hi : i < w) :
    (x.rotateRight 1).getLsbD i = x.getLsbD ((i + 1) % w) := by
  rw [BitVec.getLsbD_rotateRight]
  obtain rfl | hw : w = 1 ∨ 1 < w := by omega
  · simp [Nat.lt_one_iff.mp hi]
  · rw [Nat.mod_eq_of_lt hw]
    obtain hlow | rfl : i < w - 1 ∨ i = w - 1 := by omega
    · simp [hlow, Nat.add_comm 1 i, Nat.mod_eq_of_lt (show i + 1 < w by omega)]
    · simp [hi, Nat.sub_add_cancel hw.le]

theorem getLsbD_iterate_rotateRight_one {w : Nat} (x : BitVec w) (n : Nat) {i : Nat} (hi : i < w) :
    ((BitVec.rotateRight · 1)^[n] x).getLsbD i = x.getLsbD ((i + n) % w) := by
  induction n generalizing i with
  | zero => rw [Function.iterate_zero_apply, Nat.add_zero, Nat.mod_eq_of_lt hi]
  | succ n ih =>
    rw [Function.iterate_succ_apply', getLsbD_rotateRight_one _ hi, ih (Nat.mod_lt _ (by omega)), Nat.mod_add_mod,
      Nat.add_right_comm, Nat.add_assoc]

/-- A word rotated by one as often as it has bits is itself. -/
theorem iterate_rotateRight_one {w : Nat} (x : BitVec w) : (BitVec.rotateRight · 1)^[w] x = x := by
  refine BitVec.eq_of_getLsbD_eq fun i hi => ?_
  rw [getLsbD_iterate_rotateRight_one x w hi, Nat.add_mod_right, Nat.mod_eq_of_lt hi]

theorem rotateLeft_rotateRight_one {w : Nat} (x : BitVec w) : (x.rotateRight 1).rotateLeft 1 = x := by
  refine BitVec.eq_of_getLsbD_eq fun i hi => ?_
  rw [BitVec.getLsbD_rotateLeft]
  obtain rfl | hw : w = 1 ∨ 1 < w := by omega
  · simp [Nat.lt_one_iff.mp hi]
  · rw [Nat.mod_eq_of_lt hw]
    obtain rfl | hpos : i = 0 ∨ 0 < i := by omega
    · simp [getLsbD_rotateRight_one x (show w - 1 < w by omega), Nat.sub_add_cancel hw.le]
    · have hprev : i - 1 + 1 = i := by omega
      simp [hpos.ne', hi, getLsbD_rotateRight_one x (show i - 1 < w by omega), hprev, Nat.mod_eq_of_lt hi]

/-- Rotating left undoes rotating right, so that it has the same period. -/
theorem iterate_rotateLeft_one {w : Nat} (x : BitVec w) : (BitVec.rotateLeft · 1)^[w] x = x := by
  have undo : Function.LeftInverse (BitVec.rotateLeft · 1) (BitVec.rotateRight (w := w) · 1) :=
    rotateLeft_rotateRight_one
  have undone := undo.iterate w x
  rwa [iterate_rotateRight_one] at undone

/-! ### The rotates of the accumulator -/

/-- The word of nine bits that the rotates move: `C` above `A`. -/
def State.nineBits (s : State) : BitVec 9 :=
  BitVec.cons (s.flag .c) s.a

theorem State.eq_of_nineBits_eq {s t : State} (h : t.nineBits = s.nineBits) : t.a = s.a ∧ t.flag .c = s.flag .c := by
  have ha := congrArg (BitVec.setWidth 8) h
  have hc := congrArg BitVec.msb h
  simp only [State.nineBits, BitVec.setWidth_cons, BitVec.msb_cons] at ha hc
  exact ⟨ha, hc⟩

theorem cons_shiftROL (v : Byte) (c : Bool) :
    BitVec.cons (shiftROL v c).carry (shiftROL v c).result = (BitVec.cons c v).rotateLeft 1 := by
  revert v; cases c <;> decide

theorem cons_shiftROR (v : Byte) (c : Bool) :
    BitVec.cons (shiftROR v c).carry (shiftROR v c).result = (BitVec.cons c v).rotateRight 1 := by
  revert v; cases c <;> decide

/-- A rotate of the accumulator does to the nine bits what its function on bytes does to them. -/
theorem exec_nineBits {i : Instr} {f : Byte → Bool → Shifted} {rotate : BitVec 9 → BitVec 9} (s : State)
    (hwf : i.wf = true) (hexec : exec i s = executeShift i .acc f s)
    (hf : ∀ v c, BitVec.cons (f v c).carry (f v c).result = rotate (BitVec.cons c v)) :
    ∃ t, exec i s = .next t ∧ t.nineBits = rotate s.nineBits := by
  obtain ⟨t, ht, regs, status, -⟩ := executeShift_acc f s hwf
  refine ⟨t, hexec.trans ht, ?_⟩
  rw [State.nineBits, State.flag_c_of_putShift status, regs.a, hf, State.nineBits]

/-- An instruction that always completes and maps an observation `g` of the state by `h`, `n` times. -/
theorem execTimes_iterate {α : Type} {i : Instr} {g : State → α} {h : α → α}
    (hi : ∀ s, ∃ t, exec i s = .next t ∧ g t = h (g s)) (n : Nat) (s : State) :
    ∃ t, execTimes i n s = .next t ∧ g t = h^[n] (g s) := by
  induction n generalizing s with
  | zero => exact ⟨s, rfl, rfl⟩
  | succ n ih =>
    obtain ⟨u, hu, hg⟩ := hi s
    obtain ⟨t, ht, hgt⟩ := ih u
    refine ⟨t, ?_, ?_⟩
    · rw [execTimes, hu]
      exact ht
    · rw [hgt, hg, Function.iterate_succ_apply]

/-- Nine rotates restore `A` and `C` when nine rotations of a nine-bit word do nothing. -/
theorem execTimes_nine_restores {i : Instr} {f : Byte → Bool → Shifted} {rotate : BitVec 9 → BitVec 9} (s : State)
    (hwf : i.wf = true) (hexec : ∀ s, exec i s = executeShift i .acc f s)
    (hf : ∀ v c, BitVec.cons (f v c).carry (f v c).result = rotate (BitVec.cons c v))
    (hperiod : ∀ x, rotate^[9] x = x) :
    ∃ t, execTimes i 9 s = .next t ∧ t.a = s.a ∧ t.flag .c = s.flag .c := by
  obtain ⟨t, ht, hbits⟩ := execTimes_iterate (fun s => exec_nineBits s hwf (hexec s) hf) 9 s
  exact ⟨t, ht, State.eq_of_nineBits_eq (hbits.trans (hperiod _))⟩

/-- Settles O28: each rotate turns the nine bits of `C` and `A` by one position. -/
theorem nineRotatesRestore : Obligations.NineRotatesRestore :=
  fun s => ⟨execTimes_nine_restores s rfl (fun _ => rfl) cons_shiftROL iterate_rotateLeft_one,
    execTimes_nine_restores s rfl (fun _ => rfl) cons_shiftROR iterate_rotateRight_one⟩

end Sys2Proof.Machine
end

section
/-! PROOF. Words on the stack (40 R109): a word pulled is the two bytes above `S`, low byte first, and a word pushed to
plain RAM is the one pulled next. -/

namespace Sys2Proof.Machine

/-- No two values of `S` share a stack address (10 R11). -/
theorem stackAddr_injective : Function.Injective stackAddr := fun sp sp' h => by
  simpa [stackAddr] using congrArg lowByte h

/-- On plain RAM the byte just written is read back. -/
theorem State.busWrite_cell_same {s : State} {a : Word} (hm : Memory.wf s.ram = true)
    (h : plainAddr s.cfg a = true) (v : Byte) : (s.busWrite a v).cell a = v := by
  rw [State.busWrite_plain h]
  exact Memory.read_write_same hm v

/-- A pull is a read of the byte above `S`, and `S` moved. -/
theorem State.sameBus_pull (s : State) : SameBus (s.busRead (stackAddr (s.sp + 1))).2 s.pull.2 :=
  ⟨by simp, by simp, by simp, s.pull_io⟩

/-- The bytes of a pulled word and the reads that give them (44 R182, 45 R213). -/
theorem State.pullWord_eq (s : State) {lo hi : Byte × State} (hlo : lo = s.busRead (stackAddr (s.sp + 1)))
    (hhi : hi = lo.2.busRead (stackAddr (s.sp + 2))) :
    s.pullWord.1 = littleEndian lo.1 hi.1 ∧ s.pullWord.2.io = hi.2.io := by
  subst hlo hhi
  have hsp : s.pull.2.sp + 1 = s.sp + 2 := by rw [s.pull_sp, BitVec.add_assoc]; rfl
  obtain ⟨hv, read⟩ := s.sameBus_pull.busRead (stackAddr (s.sp + 2))
  refine ⟨?_, ?_⟩
  · rw [State.pullWord, s.pull_fst, s.pull.2.pull_fst, hsp, hv]
  · rw [State.pullWord, s.pull.2.pull_io, hsp, read.io]

/-- The cells that two pushes to plain RAM leave, high byte first. -/
theorem State.pushWord_cells {s : State} (hm : Memory.wf s.ram = true) (hhi : plainAddr s.cfg (stackAddr s.sp) = true)
    (hlo : plainAddr s.cfg (stackAddr (s.sp - 1)) = true) (w : Word) :
    (s.pushWord w).cell (stackAddr s.sp) = highByte w ∧
      (s.pushWord w).cell (stackAddr (s.sp - 1)) = lowByte w := by
  have hne : stackAddr s.sp ≠ stackAddr (s.sp - 1) := stackAddr_injective.ne (by bv_omega)
  have hplain : plainAddr (s.busWrite (stackAddr s.sp) (highByte w)).cfg (stackAddr (s.sp - 1)) = true := by
    rwa [State.busWrite_cfg]
  rw [State.pushWord_eq]
  exact ⟨(State.busWrite_cell_ne _ _ _ _ hne).trans (State.busWrite_cell_same hm hhi _),
    State.busWrite_cell_same (State.busWrite_wf hm) hplain _⟩

/-- A word pushed to plain RAM is pulled again in any state with the `S`, the configuration and the RAM it left. -/
theorem State.pullWord_of_pushWord {s u : State} {w : Word} (hm : Memory.wf s.ram = true)
    (hhi : plainAddr s.cfg (stackAddr s.sp) = true) (hlo : plainAddr s.cfg (stackAddr (s.sp - 1)) = true)
    (hsp : u.sp = s.sp - 2) (hcfg : u.cfg = s.cfg) (hram : u.ram = (s.pushWord w).ram) : u.pullWord.1 = w := by
  have hsp1 : u.sp + 1 = s.sp - 1 := by bv_omega
  have hsp2 : u.sp + 2 = s.sp := by bv_omega
  have low : u.busRead (stackAddr (s.sp - 1)) = (lowByte w, u) := by
    rw [State.busRead_plain (hcfg ▸ hlo), State.cell, hram]
    exact congrArg (·, u) (State.pushWord_cells hm hhi hlo w).2
  have high : u.busRead (stackAddr s.sp) = (highByte w, u) := by
    rw [State.busRead_plain (hcfg ▸ hhi), State.cell, hram]
    exact congrArg (·, u) (State.pushWord_cells hm hhi hlo w).1
  obtain ⟨pulled, -⟩ := u.pullWord_eq rfl rfl
  rw [pulled, hsp1, hsp2, low, high, littleEndian_bytes]

end Sys2Proof.Machine
end

section
/-! PROOF. Jumps and subroutines (44 R180 to R182). -/

namespace Sys2Proof.Machine

/-- A well-formed instruction with an operand completes with its own cycles added (40 R91). -/
theorem executeOperand_cost {i : Instr} {o : Operand} (s : State) (f : Location → State → State) (hwf : i.wf = true) :
    executeOperand i o s f =
      .next ((f (s.resolve o).1.loc (s.resolve o).2).addCycles (s.cost i (s.resolve o).1.crossed)) := by
  obtain ⟨op, ho⟩ := i.wf_iff_exists_opcodeOf.mp hwf
  simp only [executeOperand_next ho, State.cost, ho]

/-- A well-formed instruction in implied mode completes with its own cycles added (40 R91, R93). -/
theorem executeImplied_cost {i : Instr} (s : State) (f : State → State) (hwf : i.wf = true) :
    executeImplied i s f = .next ((f s).addCycles (s.cost i false)) := by
  obtain ⟨op, ho⟩ := i.wf_iff_exists_opcodeOf.mp hwf
  simp only [executeImplied_next ho, State.cost, ho]

theorem exec_jmp_abs (s : State) (w : Word) :
    exec (.jmp (.abs w)) s = .next ((s.setPC w).addCycles (s.cost (.jmp (.abs w)) false)) := by
  unfold exec
  exact executeOperand_cost s _ rfl

theorem exec_jmp_ind (s : State) (w : Word) :
    exec (.jmp (.ind w)) s =
      .next (((s.readIndirect w).2.setPC (s.readIndirect w).1).addCycles (s.cost (.jmp (.ind w)) false)) := by
  unfold exec
  exact executeOperand_cost s _ rfl

theorem exec_jsr_abs (s : State) (w : Word) :
    exec (.jsr (.abs w)) s =
      .next (((s.pushWord (s.pc - 1)).setPC w).addCycles (s.cost (.jsr (.abs w)) false)) := by
  unfold exec
  exact executeOperand_cost s _ rfl

theorem exec_rts (s : State) :
    exec .rts s = .next ((s.pullWord.2.setPC (s.pullWord.1 + 1)).addCycles (s.cost .rts false)) := by
  unfold exec
  exact executeImplied_cost s _ rfl

/-- Settles O29: the target is the operand, or the word at the two addresses of one page. -/
theorem jmpGoesToItsTarget : Obligations.JmpGoesToItsTarget := by
  intro s w hi hhi
  obtain rfl : hi = indirectHighAddr w := BitVec.eq_of_toNat_eq (by rw [hhi, toNat_indirectHighAddr])
  refine ⟨⟨_, exec_jmp_abs s w, ?_⟩, ⟨_, exec_jmp_ind s w, ?_⟩⟩
  · exact ⟨rfl, rfl, ⟨rfl, rfl, rfl, rfl⟩, rfl, rfl, .of_eq rfl rfl, exec_controlKept (exec_jmp_abs s w)⟩
  · exact ⟨toNat_littleEndian _ _, rfl, by constructor <;> simp, by simp, by simp,
      .of_eq (by simp) (by simp), exec_controlKept (exec_jmp_ind s w)⟩

/-- The bytes of the address before `w`, in numbers (44 R181). -/
theorem bytes_sub_one_eq_ofNat (w : Word) :
    highByte (w - 1) = BitVec.ofNat 8 ((w.toNat + 65535) % 65536 / 256) ∧
      lowByte (w - 1) = BitVec.ofNat 8 (w.toNat + 65535) := by
  have hw : (w - 1).toNat = (w.toNat + 65535) % 65536 := by bv_omega
  refine ⟨BitVec.eq_of_toNat_eq ?_, BitVec.eq_of_toNat_eq ?_⟩
  · rw [toNat_highByte, hw, BitVec.toNat_ofNat]; omega
  · rw [toNat_lowByte, hw, BitVec.toNat_ofNat]; omega

/-- Settles O30: the two pushes are the two stores, of the bytes of `PC - 1`. -/
theorem jsrPushesTheReturnAddress : Obligations.JsrPushesTheReturnAddress := by
  rintro s w ws rfl
  obtain ⟨hhi, hlo⟩ := bytes_sub_one_eq_ofNat s.pc
  rw [← hhi, ← hlo]
  refine ⟨_, exec_jsr_abs s w, rfl, by constructor <;> simp, by simp, by simp, ?_, ?_,
    exec_controlKept (exec_jsr_abs s w)⟩
  · apply Stored.of_eq rfl <;> simp [State.pushWord_eq]
  · simp [State.pushWord_eq]

/-- Settles O31: the word pulled is the one at the two addresses above `S`. -/
theorem rtsReturnsPastThePulledAddress : Obligations.RtsReturnsPastThePulledAddress := by
  intro s lo hi hlo hhi
  obtain ⟨pulled, io⟩ := s.pullWord_eq hlo hhi
  refine ⟨_, exec_rts s, ?_, by constructor <;> simp, by simp, by simp, io, .of_eq (by simp) (by simp),
    exec_controlKept (exec_rts s)⟩
  rw [State.addCycles_pc, State.setPC_pc, pulled, BitVec.toNat_add, toNat_littleEndian]
  rfl

/-- Settles O32: the word pulled is the pushed `PC - 1`. -/
theorem rtsUndoesJsr : Obligations.RtsUndoesJsr := by
  intro s t u w hm hhi hlo hjsr hsp hcfg hram
  obtain rfl : _ = t := Host.Outcome.next.inj ((exec_jsr_abs s w).symm.trans hjsr)
  have below : u.sp = s.sp - 2 := by simpa using hsp
  have pulled : u.pullWord.1 = s.pc - 1 := State.pullWord_of_pushWord hm hhi hlo below (by simpa using hcfg) hram
  refine ⟨_, exec_rts u, ?_, ?_, fun a => ?_⟩
  · simp [pulled]
  · simp [below]
  · simp [State.cell, hram]

end Sys2Proof.Machine
end

section
/-! PROOF. The conditional branches (44 R183 to R191). -/

namespace Sys2Proof.Machine

/-- A taken branch costs `BRANCH_EXTRA`, the second number when the high byte of `PC` changes (44 R183). -/
theorem State.branchCycles_eq (s : State) (target : Word) :
    s.branchCycles target =
      s.cfg.branchTaken + if target.toNat / 256 ≠ s.pc.toNat / 256 then s.cfg.branchPage else 0 := by
  simp only [State.branchCycles, bne_iff_ne, ne_eq, ← BitVec.toNat_inj, toNat_highByte]

/-- The target of a branch is the signed displacement from the instruction after it (40 R105). -/
theorem State.resolve_rel (s : State) (d : Byte) :
    s.resolve (.rel d) = (⟨.mem (BitVec.ofInt 16 (s.pc.toNat + d.toInt)), false⟩, s) := by
  obtain ⟨-, -, -, -, -, -, -, -, rel, -⟩ := directAddressingModes s d 0
  exact rel

/-- A branch whose meaning is `branchIf` on the condition `taken` behaves as 44 R183 says. -/
theorem branchesWhen_of_branchIf {branch : Operand → Instr} (taken : State → Bool) (s : State)
    (hwf : ∀ d, (branch (.rel d)).wf = true)
    (hexec : ∀ o, exec (branch o) s = executeOperand (branch o) o s fun l u => u.branchIf (taken u) l) :
    BranchesWhen branch (taken s) s := by
  intro d
  have completes := (hexec (.rel d)).trans (executeOperand_cost s _ (hwf d))
  rw [s.resolve_rel d, State.branchIf_shape] at completes
  refine ⟨_, completes, fun h => ?_, fun h => ?_, ⟨rfl, rfl, rfl, rfl⟩, rfl, .of_eq rfl rfl, rfl,
    exec_controlKept completes⟩
  · simp only [State.branchIf, h, if_true]
    refine ⟨rfl, ?_⟩
    simp only [State.addCycles_cycleCounter, State.addCycles_pc, State.setPC_cycleCounter, State.setPC_pc,
      State.branchCycles_eq]
    omega
  · simp [State.branchIf, h]

/-- Settles O33: each of the eight is `branchIf` on its flag. -/
theorem branchesFollowTheirFlag : Obligations.BranchesFollowTheirFlag := by
  intro s
  exact ⟨branchesWhen_of_branchIf (!·.flag .n) s (fun _ => rfl) fun _ => rfl,
    branchesWhen_of_branchIf (·.flag .n) s (fun _ => rfl) fun _ => rfl,
    branchesWhen_of_branchIf (!·.flag .v) s (fun _ => rfl) fun _ => rfl,
    branchesWhen_of_branchIf (·.flag .v) s (fun _ => rfl) fun _ => rfl,
    branchesWhen_of_branchIf (!·.flag .c) s (fun _ => rfl) fun _ => rfl,
    branchesWhen_of_branchIf (·.flag .c) s (fun _ => rfl) fun _ => rfl,
    branchesWhen_of_branchIf (!·.flag .z) s (fun _ => rfl) fun _ => rfl,
    branchesWhen_of_branchIf (·.flag .z) s (fun _ => rfl) fun _ => rfl⟩

end Sys2Proof.Machine
end

section
/-! PROOF. The instructions of the stack page (45 R200 to R203): one byte pushed, one byte pulled. -/

namespace Sys2Proof.Machine

theorem exec_pha (s : State) : exec .pha s = .next ((s.push s.a).addCycles (s.cost .pha false)) := by
  unfold exec
  exact executeImplied_cost s _ rfl

theorem exec_php (s : State) :
    exec .php s = .next ((s.push (statusWithBreak s.p)).addCycles (s.cost .php false)) := by
  unfold exec
  exact executeImplied_cost s _ rfl

/-- What an instruction that makes one push and adds its cycles leaves (40 R109). -/
theorem exec_push {i : Instr} {s : State} {v : Byte}
    (completes : exec i s = .next ((s.push v).addCycles (s.cost i false))) :
    ∃ t, exec i s = .next t ∧ Stored [(stackAddr s.sp, v)] s s t ∧ t.io = (s.busWrites [(stackAddr s.sp, v)]).io ∧
      Regs t s.a s.x s.y (s.sp - 1) ∧ t.p = s.p ∧ t.pc = s.pc ∧ t.cycleCounter = s.cycleCounter + s.cost i false ∧
      ControlKept s t :=
  ⟨_, completes, .of_eq rfl rfl rfl, rfl, by constructor <;> simp, by simp, by simp, by simp,
    exec_controlKept completes⟩

/-- Settles O34: each is one push, of `A` or of the status with Break. -/
theorem phaPhpPushOneByte : Obligations.PhaPhpPushOneByte := fun s => ⟨exec_push (exec_pha s), exec_push (exec_php s)⟩

/-- The flags of a pulled status: Break clear, bit 5 set, the six others those of the byte (45 R203, R213). -/
theorem State.flags_of_statusPulled {t : State} {v : Byte} (h : t.p = statusPulled v) :
    t.flag .b = false ∧ t.flag .u = true ∧ ∀ f ∈ [Flag.n, .v, .d, .i, .z, .c], t.flag f = getFlag f v := by
  simp [State.flag_eq, h]

theorem exec_pla (s : State) :
    exec .pla s = .next (((s.pull.2.setA s.pull.1).setNZ s.pull.1).addCycles (s.cost .pla false)) := by
  unfold exec
  exact executeImplied_cost s _ rfl

theorem exec_plp (s : State) :
    exec .plp s = .next ((s.pull.2.setP (statusPulled s.pull.1)).addCycles (s.cost .plp false)) := by
  unfold exec
  exact executeImplied_cost s _ rfl

/-- Settles O35: the byte above `S` goes to `A`, with `N` and `Z`, or to the status. -/
theorem plaPlpPullOneByte : Obligations.PlaPlpPullOneByte := by
  rintro s v rfl
  rw [← s.pull_fst, ← s.pull_io]
  refine ⟨⟨_, exec_pla s, ?_⟩, ⟨_, exec_plp s, ?_⟩⟩
  · exact ⟨by constructor <;> simp, .of_putNZ (p := s.p) (by simp), .of_putNZ (v := s.pull.1) (by simp), by simp, rfl,
      by simp, .of_eq (by simp) (by simp), exec_controlKept (exec_pla s)⟩
  · obtain ⟨hb, hu, hflags⟩ := State.flags_of_statusPulled (t := s.pull.2.setP (statusPulled s.pull.1)) rfl
    exact ⟨by constructor <;> simp, rfl, hb, hu, hflags, by simp, rfl, by simp, .of_eq (by simp) (by simp),
      exec_controlKept (exec_plp s)⟩

end Sys2Proof.Machine
end

section
/-! PROOF. The flag instructions, `NOP` and the unofficial opcodes (45 R204 to R211, R214). -/

namespace Sys2Proof.Machine

/-- The cycles under the default table, no page crossed (30 R74, R75). -/
theorem State.cost_default {s : State} {i : Instr} (hwf : i.wf = true) (hdefault : s.cfg.cycles = none) :
    s.cost i false = baseCycles i.mnemonic i.mode := by
  simpa using (cyclesFollowTheTable i s false hwf).1 hdefault

/-- An instruction in implied mode whose operation is `setFlag` writes that flag alone (10 R14). -/
theorem writesFlag_of_setFlag {i : Instr} {f : Flag} {b : Bool} {s : State} (hf : f ≠ .u) (hwf : i.wf = true)
    (hexec : exec i s = executeImplied i s (·.setFlag f b)) : WritesFlag i f b s := by
  obtain ⟨t, ht, regs, status, frame⟩ :=
    executeImplied_registers (f := (·.setFlag f b)) (p := putFlag f b s.p) s hwf rfl
  exact ⟨t, hexec.trans ht, by simp [State.flag_eq, status, hf], .of_putFlag status, regs, frame⟩

/-- Settles O36: each is `setFlag` of its flag; the table gives each one byte and 2 cycles. -/
theorem flagInstructionsWriteOneFlag : Obligations.FlagInstructionsWriteOneFlag := by
  have oneByte : ∀ i ∈ [Instr.clc, .sec, .cli, .sei, .cld, .sed, .clv],
      i.wf = true ∧ (encode i).length = 1 ∧ baseCycles i.mnemonic i.mode = 2 := by decide
  refine fun s => ⟨writesFlag_of_setFlag nofun rfl rfl, writesFlag_of_setFlag nofun rfl rfl,
    writesFlag_of_setFlag nofun rfl rfl, writesFlag_of_setFlag nofun rfl rfl, writesFlag_of_setFlag nofun rfl rfl,
    writesFlag_of_setFlag nofun rfl rfl, writesFlag_of_setFlag nofun rfl rfl, fun i hi => ?_⟩
  obtain ⟨hwf, hlength, hcycles⟩ := oneByte i hi
  exact ⟨hlength, fun hdefault => (State.cost_default hwf hdefault).trans hcycles⟩

/-- An unofficial opcode byte makes a well-formed fallback no-op (30 R75). -/
theorem wf_unofficialNop {op : Byte} (h : op ∈ unofficialBytes) : (Instr.unofficialNop op).wf = true :=
  List.contains_iff_mem.mpr h

/-- Settles O37: both are implied instructions whose operation is nothing. -/
theorem nopsOnlyTakeTime : Obligations.NopsOnlyTakeTime := by
  intro s op
  unfold exec
  exact ⟨executeImplied_cost s _ rfl, fun h => executeImplied_cost s _ (wf_unofficialNop h),
    fun hdefault => ⟨State.cost_default rfl hdefault, fun h => State.cost_default (wf_unofficialNop h) hdefault⟩⟩

end Sys2Proof.Machine
end

section
/-! PROOF. The frame of an entry on the stack (60 R236, R238): the three bytes it leaves in plain RAM, and the return
that pulls them. -/

namespace Sys2Proof.Machine

/-- What a return pulls: the status, then `PC` low byte first, and the reads that give them (45 R213). -/
theorem State.returnFromHandler_eq (s : State) {v lo hi : Byte × State} (hv : v = s.busRead (stackAddr (s.sp + 1)))
    (hlo : lo = v.2.busRead (stackAddr (s.sp + 2))) (hhi : hi = lo.2.busRead (stackAddr (s.sp + 3))) :
    s.returnFromHandler.p = statusPulled v.1 ∧ s.returnFromHandler.pc = littleEndian lo.1 hi.1 ∧
      s.returnFromHandler.io = hi.2.io := by
  subst hv hlo hhi
  obtain ⟨hcfg, hram, htimer, hio⟩ := s.sameBus_pull
  have after : SameBus (s.busRead (stackAddr (s.sp + 1))).2 (s.pull.2.setP (statusPulled s.pull.1)) :=
    ⟨hcfg, hram, htimer, hio⟩
  have hsp : (s.pull.2.setP (statusPulled s.pull.1)).sp = s.sp + 1 := s.pull_sp
  have hsp1 : s.sp + 1 + 1 = s.sp + 2 := by bv_omega
  have hsp2 : s.sp + 1 + 2 = s.sp + 3 := by bv_omega
  obtain ⟨target, io⟩ := (s.pull.2.setP (statusPulled s.pull.1)).pullWord_eq rfl rfl
  rw [hsp, hsp1, hsp2] at target io
  obtain ⟨low, after⟩ := after.busRead (stackAddr (s.sp + 2))
  obtain ⟨high, after⟩ := after.busRead (stackAddr (s.sp + 3))
  refine ⟨by rw [State.returnFromHandler_p, s.pull_fst], target.trans ?_, io.trans after.io⟩
  rw [low, high]

/-- The three cells that an entry leaves in plain RAM. -/
theorem State.enterHandler_cells {s : State} (hm : Memory.wf s.ram = true)
    (hhi : plainAddr s.cfg (stackAddr s.sp) = true) (hlo : plainAddr s.cfg (stackAddr (s.sp - 1)) = true)
    (hst : plainAddr s.cfg (stackAddr (s.sp - 2)) = true) (vector : Word) (status : Byte) :
    (s.enterHandler vector status).cell (stackAddr s.sp) = highByte s.pc ∧
      (s.enterHandler vector status).cell (stackAddr (s.sp - 1)) = lowByte s.pc ∧
      (s.enterHandler vector status).cell (stackAddr (s.sp - 2)) = status := by
  have hram : (s.enterHandler vector status).ram = ((s.pushWord s.pc).busWrite (stackAddr (s.sp - 2)) status).ram := by
    simp [State.enterHandler, State.push]
  have hhi' : stackAddr s.sp ≠ stackAddr (s.sp - 2) := stackAddr_injective.ne (by bv_omega)
  have hlo' : stackAddr (s.sp - 1) ≠ stackAddr (s.sp - 2) := stackAddr_injective.ne (by bv_omega)
  have hwf : Memory.wf (s.pushWord s.pc).ram = true := State.busWrite_wf (State.busWrite_wf hm)
  obtain ⟨high, low⟩ := State.pushWord_cells hm hhi hlo s.pc
  simp only [State.cell, hram]
  exact ⟨(State.busWrite_cell_ne _ _ _ _ hhi').trans high, (State.busWrite_cell_ne _ _ _ _ hlo').trans low,
    State.busWrite_cell_same hwf (by rwa [State.pushWord_cfg]) _⟩

/-- A return undoes an entry whose frame lies in plain RAM, in any state with the `S`, the configuration and the RAM
that the entry left (60 R238). -/
theorem State.returnFromHandler_of_enterHandler {s u : State} {vector : Word} {status : Byte}
    (hm : Memory.wf s.ram = true) (hhi : plainAddr s.cfg (stackAddr s.sp) = true)
    (hlo : plainAddr s.cfg (stackAddr (s.sp - 1)) = true) (hst : plainAddr s.cfg (stackAddr (s.sp - 2)) = true)
    (hsp : u.sp = s.sp - 3) (hcfg : u.cfg = s.cfg) (hram : u.ram = (s.enterHandler vector status).ram) :
    u.returnFromHandler.pc = s.pc ∧ u.returnFromHandler.p = statusPulled status ∧ u.returnFromHandler.sp = s.sp := by
  obtain ⟨high, low, st⟩ := State.enterHandler_cells hm hhi hlo hst vector status
  have hsp1 : u.sp + 1 = s.sp - 2 := by bv_omega
  have hsp2 : u.sp + 2 = s.sp - 1 := by bv_omega
  have hsp3 : u.sp + 3 = s.sp := by bv_omega
  have read {a : Word} {v : Byte} (ha : plainAddr s.cfg a = true) (hv : (s.enterHandler vector status).cell a = v) :
      (v, u) = u.busRead a := by
    rw [State.busRead_plain (hcfg ▸ ha), State.cell, hram, ← hv, State.cell]
  obtain ⟨p, pc, -⟩ := u.returnFromHandler_eq (v := (status, u)) (lo := (lowByte s.pc, u)) (hi := (highByte s.pc, u))
    (hsp1 ▸ read hst st) (hsp2 ▸ read hlo low) (hsp3 ▸ read hhi high)
  exact ⟨pc.trans (littleEndian_bytes _), p, u.returnFromHandler_sp.trans hsp3⟩

end Sys2Proof.Machine
end

section
/-! PROOF. `BRK` and `RTI` (45 R212, R213). -/

namespace Sys2Proof.Machine

theorem exec_brk (s : State) :
    exec .brk s =
      .next ((s.fetchByte.2.enterHandler irqVector (statusWithBreak s.p)).addCycles (s.cost .brk false)) := by
  unfold exec
  exact executeImplied_cost s _ rfl

theorem exec_rti (s : State) : exec .rti s = .next (s.returnFromHandler.addCycles (s.cost .rti false)) := by
  unfold exec
  exact executeImplied_cost s _ rfl

/-- Settles O38: the entry is taken at the state after the fetch of the padding byte. -/
theorem brkEntersThroughTheIrqVector : Obligations.BrkEntersThroughTheIrqVector := by
  intro s u hu
  obtain rfl : u = s.fetchByte.2 := hu
  have entered := s.fetchByte.2.enterHandler_entered irqVector (statusWithBreak s.p)
  exact ⟨_, exec_brk s,
    entered.of_latches (nmi := s.fetchByte.2.pendingNMI) (irq := s.fetchByte.2.pendingIRQ) _, by simp,
    exec_controlKept (exec_brk s)⟩

/-- Settles O39: the return pulls the status and then `PC`. -/
theorem rtiRestoresStatusAndPC : Obligations.RtiRestoresStatusAndPC := by
  intro s v lo hi hv hlo hhi
  obtain ⟨status, target, io⟩ := s.returnFromHandler_eq hv hlo hhi
  rw [← State.addCycles_p _ (s.cost .rti false)] at status
  rw [← State.addCycles_io _ (s.cost .rti false)] at io
  obtain ⟨hb, hu, hflags⟩ := State.flags_of_statusPulled status
  refine ⟨_, exec_rti s, ?_, status, hb, hu, hflags, by constructor <;> simp, io, by simp,
    .of_eq (by simp) (by simp), exec_controlKept (exec_rti s)⟩
  rw [State.addCycles_pc, target, toNat_littleEndian]

/-- A legal status pushed with Break and pulled again is itself (10 R14). -/
theorem statusPulled_statusWithBreak {p : Byte} (h : p &&& 0x30 = 0x20) : statusPulled (statusWithBreak p) = p := by
  revert p
  decide

/-- Settles O40: the return undoes the entry, which `BRK` takes one byte further. -/
theorem rtiUndoesBrk : Obligations.RtiUndoesBrk := by
  intro s t u hm hlegal hhi hlo hst hbrk hsp hcfg hram
  obtain rfl : _ = t := Host.Outcome.next.inj ((exec_brk s).symm.trans hbrk)
  rw [State.addCycles_ram] at hram
  rw [← s.fetchByte_ram] at hm
  rw [← s.fetchByte_cfg, ← s.fetchByte_sp] at hhi hlo hst
  obtain ⟨pc, p, sp⟩ := State.returnFromHandler_of_enterHandler (vector := irqVector) (status := statusWithBreak s.p)
    hm hhi hlo hst (by simpa using hsp) (by simpa using hcfg) hram
  refine ⟨_, exec_rti u, ?_, ?_, ?_⟩
  · rw [State.addCycles_pc, pc, State.fetchByte_pc]
  · rw [State.addCycles_p, p, statusPulled_statusWithBreak hlegal]
  · rw [State.addCycles_sp, sp, State.fetchByte_sp]

end Sys2Proof.Machine
end

section
/-! PROOF. The request inputs and the timer (60 R232, R233, R244 to R248). -/

namespace Sys2Proof.Machine

/-- Settles O44: `nmi()` is one field written, and `irq()` asks for `P.I`. -/
theorem irqIsGatedWhenItIsRequested : Obligations.IrqIsGatedWhenItIsRequested := fun s =>
  ⟨rfl, fun hi => if_neg (by simp [hi]), fun hi => if_pos hi⟩

/-! ### Register writes -/

/-- The low-latch register replaces the low byte of the latch (60 R245). -/
theorem Timer.writeRegister_lo (t : Timer) (lo hi : Fin 8) (v : Byte) :
    t.writeRegister lo hi lo v = { t with regs := t.regs.set lo v, latch := littleEndian v (highByte t.latch) } :=
  if_pos rfl

/-- The high-latch register replaces the high byte of the latch, loads the counter and arms the timer (60 R246). -/
theorem Timer.writeRegister_hi (t : Timer) {lo hi : Fin 8} (hne : hi ≠ lo) (v : Byte) :
    t.writeRegister lo hi hi v =
      { t with
        regs := t.regs.set hi v, latch := littleEndian (lowByte t.latch) v
        counter := (littleEndian (lowByte t.latch) v).toNat, enabled := true } :=
  (if_neg hne).trans (if_pos rfl)

/-- Any other register is only stored (60 R244). -/
theorem Timer.writeRegister_other (t : Timer) {lo hi i : Fin 8} (hlo : i ≠ lo) (hhi : i ≠ hi) (v : Byte) :
    t.writeRegister lo hi i v = { t with regs := t.regs.set i v } :=
  (if_neg hlo).trans (if_neg hhi)

theorem Timer.writeRegister_regs (t : Timer) (lo hi i : Fin 8) (v : Byte) :
    (t.writeRegister lo hi i v).regs = t.regs.set i v := by
  unfold Timer.writeRegister
  split
  · rfl
  · split <;> rfl

/-- Settles O47: the three kinds of register, with the latch put together from its bytes in numbers. -/
theorem timerRegisterWrites : Obligations.TimerRegisterWrites := by
  intro t lo hi i v hne
  refine ⟨t.writeRegister_regs lo hi i v, ?_, ?_, fun hlo hhi => ?_⟩
  · rintro rfl
    rw [Timer.writeRegister_lo]
    refine ⟨?_, rfl, rfl⟩
    rw [toNat_littleEndian, toNat_highByte]
    omega
  · rintro rfl
    rw [t.writeRegister_hi hne.symm]
    refine ⟨?_, rfl, rfl⟩
    rw [toNat_littleEndian, toNat_lowByte]
    omega
  · rw [t.writeRegister_other hlo hhi]
    exact ⟨rfl, rfl, rfl⟩

/-! ### Ticks -/

/-- A timer that is not armed does not count (60 R248). -/
theorem State.tick_of_disarmed {s : State} (h : s.timer.enabled = false) (n : Nat) : s.tick n = s := by
  simp [State.tick, Timer.tick, Timer.expires, h, State.setTimer]

/-- An armed timer that stays above zero only counts (60 R248). -/
theorem State.tick_of_above {s : State} {n : Nat} (h : s.timer.enabled = true) (hn : 0 < s.timer.counter - n) :
    s.tick n = { s with timer := { s.timer with counter := s.timer.counter - n } } := by
  have stays : s.timer.expires n = false := by
    rw [Timer.expires, h, Bool.true_and, decide_eq_false_iff_not]
    exact not_le.mpr hn
  simp [State.tick, Timer.tick, stays, h, State.setTimer]

/-- An armed timer that reaches zero is reloaded and requests an IRQ (60 R248). -/
theorem State.tick_of_expired {s : State} {n : Nat} (h : s.timer.enabled = true) (hn : s.timer.counter - n ≤ 0) :
    s.tick n = State.irq { s with timer := { s.timer with counter := s.timer.reload } } := by
  have expires : s.timer.expires n = true := by simp [Timer.expires, h, hn]
  simp [State.tick, Timer.tick, expires, State.setTimer]

theorem Timer.reload_eq (t : Timer) : t.reload = if t.latch.toNat = 0 then 65536 else (t.latch.toNat : Int) := by
  have zero : t.latch = 0 ↔ t.latch.toNat = 0 := by rw [← BitVec.toNat_inj]; rfl
  simp only [Timer.reload, zero]

/-- Settles O48: not armed, above zero, and expired. -/
theorem tickReloadsOnExpiry : Obligations.TickReloadsOnExpiry := by
  intro s n
  rw [← Timer.reload_eq]
  exact ⟨fun h => State.tick_of_disarmed h n, State.tick_of_above, State.tick_of_expired⟩

/-- Settles O49: after the first tick the second one finds the counter lower by `n`, and brings it as far down as
`tick(n + m)` does. -/
theorem ticksAddUpBeforeExpiry : Obligations.TicksAddUpBeforeExpiry := by
  intro s n m harmed hn
  have first := State.tick_of_above harmed hn
  have harmed' : (s.tick n).timer.enabled = true := by rw [first]; exact harmed
  have count : (s.tick n).timer.counter - m = s.timer.counter - (n + m : Nat) := by
    rw [first]
    dsimp only
    omega
  by_cases hm : 0 < s.timer.counter - (n + m : Nat)
  · rw [State.tick_of_above harmed hm, State.tick_of_above harmed' (count ▸ hm), count, first]
  · have hm := not_lt.mp hm
    rw [State.tick_of_expired harmed hm, State.tick_of_expired harmed' (count ▸ hm), first]
    rfl

/-! ### Register writes through the bus -/

/-- A bus write at the address of register `k` of the timer's hook is a write of that register (60 R243). -/
theorem State.busWrite_of_timerHook {s : State} {h : Hook} {w : Word} {k : Fin 8} (hc : configWf s.cfg = true)
    (hmem : h ∈ s.cfg.hooks) (hdev : h.device = .timer) (hw : w.toNat = h.start + k.val) (v : Byte) :
    s.busWrite w v = s.setTimer (s.timer.writeRegister s.cfg.timerRegLo s.cfg.timerRegHi k v) := by
  obtain ⟨-, hhooks, -, -⟩ := (configWf_iff s.cfg).mp hc
  obtain ⟨hall, hapart, -⟩ := (hooksWf_iff _).mp hhooks
  obtain ⟨-, -, htimer⟩ := (hookWf_iff h).mp (hall h hmem)
  obtain ⟨hstop, hwrite⟩ := htimer hdev
  have covers : hookCovers h w = true := (hookCovers_iff h w).mpr (by omega)
  have register : Fin.ofNat 8 (w.toNat - h.start) = k := by
    rw [hw, Nat.add_sub_cancel_left]
    exact Fin.ofNat_val_eq_self k
  rw [State.busWrite_of_hook hapart hmem covers hwrite]
  simp only [State.deviceWrite, hdev, register, State.setTimer]

/-- A store at that address, made after reads that advanced the external devices alone: the register write, and nothing
of RAM or of the devices. -/
theorem Stored.of_timerHook {s u t : State} {h : Hook} {w : Word} {k : Fin 8} {v : Byte} (hc : configWf s.cfg = true)
    (hmem : h ∈ s.cfg.hooks) (hdev : h.device = .timer) (hw : w.toNat = h.start + k.val)
    (hu : u = { s with io := u.io }) (stored : Stored [(w, v)] u s t) (hio : t.io = (u.busWrites [(w, v)]).io) :
    t.timer = s.timer.writeRegister s.cfg.timerRegLo s.cfg.timerRegHi k v ∧ t.ram = s.ram ∧ t.io = u.io := by
  have hcfg : u.cfg = s.cfg := by rw [hu]
  have write : u.busWrites [(w, v)] = u.setTimer (u.timer.writeRegister u.cfg.timerRegLo u.cfg.timerRegHi k v) :=
    State.busWrite_of_timerHook (hcfg ▸ hc) (hcfg ▸ hmem) hdev hw v
  rw [stored.timer, stored.ram, hio, write]
  refine ⟨?_, ?_, rfl⟩ <;> rw [hu] <;> rfl

/-- Settles O50: each store and each read-modify-write stores its byte once, at the address the operand resolves to. -/
theorem storesToTheTimerHookWriteItsRegister : Obligations.StoresToTheTimerHookWriteItsRegister := by
  rintro s h o w k v c hc hmem hdev hloc hw rfl rfl
  have store {i : Instr} {r : Byte} : (∃ t, exec i s = .next t ∧ StoreFrame i o w r s t) →
      ∃ t, exec i s = .next t ∧ t.timer = s.timer.writeRegister s.cfg.timerRegLo s.cfg.timerRegHi k r ∧
        t.ram = s.ram ∧ t.io = (s.resolve o).2.io := fun ⟨t, ht, frame⟩ =>
    ⟨t, ht, frame.stored.of_timerHook hc hmem hdev hw (s.resolve_shape o) frame.io⟩
  have modify {i : Instr} {r : Byte} : (∃ t, exec i s = .next t ∧ ModifyFrame i o w r s t) →
      ∃ t, exec i s = .next t ∧ t.timer = s.timer.writeRegister s.cfg.timerRegLo s.cfg.timerRegHi k r ∧
        t.ram = s.ram ∧ t.io = (s.afterLoad o).io := fun ⟨t, ht, frame⟩ =>
    ⟨t, ht, frame.stored.of_timerHook hc hmem hdev hw (s.afterLoad_shape o) frame.io⟩
  have shift {f : Operand → Instr} {result : Nat → Nat → Nat} {carry : Nat → Bool} (hf : ShiftsAs f result carry s)
      (hwf : (f o).wf = true) :=
    have ⟨t, ht, _, _, _, frame⟩ := hf.2 o w hwf hloc
    modify ⟨t, ht, frame⟩
  obtain ⟨sta, stx, sty⟩ := (storesWriteOneByte s o).2 w hloc
  obtain ⟨inc, dec⟩ := (incDecModifyOneByte s o).2 w _ hloc rfl
  obtain ⟨-, asl, lsr, rol, ror⟩ := shiftsMoveOneBit s
  simp only [List.forall_mem_cons]
  exact ⟨⟨store ∘ sta, store ∘ stx, store ∘ sty, List.forall_mem_nil _⟩,
    fun hwf => have ⟨t, ht, _, _, frame⟩ := inc hwf; modify ⟨t, ht, frame⟩,
    fun hwf => have ⟨t, ht, _, _, frame⟩ := dec hwf; modify ⟨t, ht, frame⟩,
    shift asl, shift lsr, shift rol, shift ror, List.forall_mem_nil _⟩

end Sys2Proof.Machine
end

section
/-! PROOF. The return from an interrupt service (60 R236, R238; 45 R213). -/

namespace Sys2Proof.Machine

/-- A legal status pushed without Break and pulled again is itself (10 R14). -/
theorem statusPulled_statusWithoutBreak {p : Byte} (h : p &&& 0x30 = 0x20) :
    statusPulled (statusWithoutBreak p) = p := by
  revert p
  decide

/-- Settles O46: the return undoes the entry of the service. -/
theorem rtiUndoesAnInterruptService : Obligations.RtiUndoesAnInterruptService := by
  intro s u vector hm hlegal hhi hlo hst hsp hcfg hram
  rw [State.serviceInterrupt, State.addCycles_sp, State.enterHandler_sp] at hsp
  rw [State.serviceInterrupt, State.addCycles_ram] at hram
  obtain ⟨pc, p, sp⟩ := State.returnFromHandler_of_enterHandler hm hhi hlo hst hsp hcfg hram
  refine ⟨_, exec_rti u, ?_, ?_, ?_⟩
  · rw [State.addCycles_pc, pc]
  · rw [State.addCycles_p, p, statusPulled_statusWithoutBreak hlegal]
  · rw [State.addCycles_sp, sp]

end Sys2Proof.Machine
end

section
/-! PROOF. How long an instruction and a CPU step take (40 R91; 60 R250; 70 R280). -/

namespace Sys2Proof.Machine

/-! ### An instruction takes its own cycles at least -/

/-- A page crossing never makes an instruction shorter (40 R106). -/
theorem State.cost_false_le (s : State) (i : Instr) (crossed : Bool) : s.cost i false ≤ s.cost i crossed := by
  cases ho : opcodeOf i with
  | none => simp [State.cost, ho]
  | some op => simp [s.cost_of_opcodeOf ho]

/-- `ExecuteInstruction` around an operation that takes no cycles back. -/
theorem execute_cost_le {i : Instr} {s t : State} {body : State → Bool × State} (h : execute i s body = .next t)
    (hbody : s.cycleCounter ≤ (body s).2.cycleCounter) : s.cycleCounter + s.cost i false ≤ t.cycleCounter := by
  obtain ⟨op, ho, rfl⟩ := execute_inv h
  have own : s.cost i false ≤ s.cyclesOf op (body s).1 := by
    simpa only [State.cost, ho] using s.cost_false_le i (body s).1
  exact Nat.add_le_add hbody own

theorem executeImplied_cost_le {i : Instr} {s t : State} {f : State → State} (h : executeImplied i s f = .next t)
    (hf : s.cycleCounter ≤ (f s).cycleCounter) : s.cycleCounter + s.cost i false ≤ t.cycleCounter :=
  execute_cost_le h hf

theorem executeOperand_cost_le {i : Instr} {o : Operand} {s t : State} {f : Location → State → State}
    (h : executeOperand i o s f = .next t) (hf : ∀ l u, u.cycleCounter ≤ (f l u).cycleCounter) :
    s.cycleCounter + s.cost i false ≤ t.cycleCounter := by
  refine execute_cost_le h ?_
  rw [← s.resolve_cycleCounter o]
  exact hf _ _

theorem executeRead_cost_le {i : Instr} {o : Operand} {s t : State} {f : Byte → State → State}
    (h : executeRead i o s f = .next t) (hf : ∀ v u, u.cycleCounter ≤ (f v u).cycleCounter) :
    s.cycleCounter + s.cost i false ≤ t.cycleCounter := by
  refine executeOperand_cost_le h fun l u => ?_
  rw [← u.loadOperand_cycleCounter l]
  exact hf _ _

theorem executeModify_cost_le {i : Instr} {o : Operand} {s t : State} {f : Byte → State → Byte × State}
    (h : executeModify i o s f = .next t) (hf : ∀ v u, u.cycleCounter ≤ (f v u).2.cycleCounter) :
    s.cycleCounter + s.cost i false ≤ t.cycleCounter := by
  refine executeOperand_cost_le h fun l u => ?_
  rw [State.storeOperand_cycleCounter, ← u.loadOperand_cycleCounter l]
  exact hf _ _

theorem State.jumpTo_cycleCounter (s : State) (l : Location) : (s.jumpTo l).cycleCounter = s.cycleCounter := by
  rw [s.jumpTo_shape l]

/-- A branch taken adds cycles, one not taken adds none (44 R183). -/
theorem State.branchIf_cycleCounter_le (s : State) (taken : Bool) (l : Location) :
    s.cycleCounter ≤ (s.branchIf taken l).cycleCounter := by
  cases taken with
  | false => exact le_rfl
  | true =>
    cases l with
    | mem target => exact Nat.le_add_right _ _
    | acc | imm _ => exact le_rfl

/-- No operation takes cycles back: the branches may add some, and every other one leaves the counter alone. -/
theorem exec_cost_le {i : Instr} {s t : State} (h : exec i s = .next t) :
    s.cycleCounter + s.cost i false ≤ t.cycleCounter := by
  unfold exec at h
  cases i with
  | lda o | ldx o | ldy o | adc o | sbc o | cmp o | cpx o | cpy o | and o | ora o | eor o | bit o =>
    exact executeRead_cost_le h fun _ _ => le_rfl
  | sta o | stx o | sty o => exact executeOperand_cost_le h fun l u => (u.storeOperand_cycleCounter _ l).ge
  | inc o | dec o | asl o | lsr o | rol o | ror o => exact executeModify_cost_le h fun _ _ => le_rfl
  | jmp o => exact executeOperand_cost_le h fun l u => (u.jumpTo_cycleCounter l).ge
  | jsr o =>
    exact executeOperand_cost_le h fun l u => ((State.jumpTo_cycleCounter _ l).trans (u.pushWord_cycleCounter _)).ge
  | bcc o | bcs o | beq o | bmi o | bne o | bpl o | bvc o | bvs o =>
    exact executeOperand_cost_le h fun l u => u.branchIf_cycleCounter_le _ l
  | tax | tay | txa | tya | tsx | txs | inx | iny | dex | dey | clc | sec | cli | sei | cld | sed | clv | nop
  | unofficialNop _ => exact executeImplied_cost_le h le_rfl
  | pha | php | pla | plp | rts | rti | brk => exact executeImplied_cost_le h (by simp)

/-- Settles O13: some opcode encodes the instruction, so it completes; what it keeps and how long it takes hold of every
instruction that completes. -/
theorem everyInstructionCompletes : Obligations.EveryInstructionCompletes := by
  intro i s hwf
  obtain ⟨op, ho⟩ := i.wf_iff_exists_opcodeOf.mp hwf
  obtain ⟨t, ht⟩ := exec_next_of_opcodeOf ho s
  exact ⟨t, ht, exec_controlKept ht, exec_cost_le ht⟩

/-! ### Two cycles -/

/-- Every descriptor has at least 2 base cycles (30 R74, R75). -/
theorem two_le_descriptor_base (op : Byte) : 2 ≤ (descriptor op).base := by
  have rows : opcodeTable.all (fun r => decide (2 ≤ r.base)) = true := by decide +kernel
  cases hl : lookupOpcode op with
  | none => rw [descriptor_of_none hl]
  | some r =>
    rw [descriptor_of_some hl]
    exact of_decide_eq_true (List.all_eq_true.mp rows r (lookupOpcode_mem hl).1)

/-- So does every entry of another table that the configuration may have (92 D7, log 10). -/
theorem State.two_le_cycleEntry_base {s : State} (hc : configWf s.cfg = true) (op : Byte) :
    2 ≤ (s.cycleEntry op).base := by
  obtain ⟨-, -, -, hcycles⟩ := (configWf_iff s.cfg).mp hc
  unfold State.cycleEntry
  split
  · exact two_le_descriptor_base op
  · next table htable =>
    simp only [htable, cyclesWf, Bool.and_eq_true, decide_eq_true_eq, List.all_eq_true] at hcycles
    obtain ⟨hlen, hall⟩ := hcycles
    have inside : op.toNat < table.length := hlen ▸ op.isLt
    rw [List.getElem?_eq_getElem inside]
    exact hall _ (List.getElem_mem inside)

/-- An encoded instruction costs 2 cycles at least. -/
theorem State.two_le_cost {s : State} {i : Instr} {op : Byte} (hc : configWf s.cfg = true) (ho : opcodeOf i = some op) :
    2 ≤ s.cost i false := by
  rw [s.cost_of_opcodeOf ho]
  exact le_add_right (s.two_le_cycleEntry_base hc op)

/-- Settles O60: a service takes 7 cycles; an instruction takes its own cycles, after a fetch that takes none. -/
theorem everyCpuStepTakesTwoCycles : Obligations.EveryCpuStepTakesTwoCycles := by
  intro s t hc h
  obtain ⟨-, ⟨-, rfl⟩ | ⟨-, -, rfl⟩ | ⟨-, -, he⟩⟩ := State.cpuStep_inv h
  · simp [State.serviceInterrupt]
  · simp [State.serviceInterrupt]
  · have own := exec_cost_le he
    have two : 2 ≤ s.fetchInstr.2.cost s.fetchInstr.1 false :=
      State.two_le_cost (by rwa [s.fetchInstr_shape]) s.opcodeOf_fetchInstr
    have fetch : s.fetchInstr.2.cycleCounter = s.cycleCounter := by rw [s.fetchInstr_shape]
    omega

end Sys2Proof.Machine
end

section
/-! PROOF. The step by the call it serves (60 R230, R250, R251). -/

namespace Sys2Proof.Machine

theorem step_of_configWf {s : State} (hc : configWf s.cfg = true) : step s = s.advance :=
  if_pos hc

theorem State.advance_nil {s : State} (h : s.inputs = []) : s.advance = s.systemStep := by
  rw [State.advance, h]

theorem State.advance_cons {s : State} {call : Input} {later : List Input} (h : s.inputs = call :: later) :
    s.advance = State.serve { s with inputs := later } call := by
  rw [State.advance, h]

/-- A system step is the CPU step and one tick with its cycles (60 R250). -/
theorem State.systemStep_of_cpuStep {s t : State} (h : s.cpuStep = .next t) :
    s.systemStep = .next (t.tick (t.cycleCounter - s.cycleCounter)) := by
  rw [State.systemStep, h]
  rfl

/-- Settles O54: the step is `serve` of the head of the list, or the system step. -/
theorem stepServesTheListedCall : Obligations.StepServesTheListedCall := by
  intro s later hc
  rw [step_of_configWf hc]
  refine ⟨fun t hnil hcpu => ?_, fun t hcall hcpu => ?_, State.advance_cons, fun n => State.advance_cons,
    State.advance_cons, State.advance_cons, State.advance_cons⟩
  · rw [State.advance_nil hnil, State.systemStep_of_cpuStep hcpu]
  · exact (State.advance_cons hcall).trans (State.systemStep_of_cpuStep hcpu)

/-- Settles O58: the machine has no fault, and the invariant excludes each of the refusals. -/
theorem noStepStops : Obligations.NoStepStops := by
  intro s ⟨hc, _, _, hrun, _⟩
  cases hstep : step s with
  | next t => exact ⟨t, rfl⟩
  | fault f => nomatch f
  | refused r =>
    obtain ⟨hc', -⟩ | ⟨-, hrun', -⟩ := (refusalsAreNamed.2 s r).mp hstep
    · simp [hc] at hc'
    · simp [hrun] at hrun'

end Sys2Proof.Machine
end

section
/-! PROOF. `reset()` from any state (70 R270). -/

namespace Sys2Proof.Machine

/-- Settles O51: `doReset` overwrites what the statement lists, and its 16-bit read of the vector is the low byte at
0xFFFC, then the high byte at 0xFFFD. -/
theorem resetLoadsTheVector : Obligations.ResetLoadsTheVector := by
  rintro s lo hi rfl rfl
  have next : resetVector + 1 = 0xFFFD := rfl
  rw [State.doReset_shape, State.read16, next, littleEndian_eq_ofNat, resetVector]

end Sys2Proof.Machine
end
